-- ==== Sys2Proof/Word.lean ====
section
/-! DEFINITION. The widths of the Am9080A: an 8-bit byte and a 16-bit word (spec 00_scope.md R6, R10; 20_memory.md R51). -/

namespace Sys2Proof

/-- A register, a memory byte, a port's byte (00_scope.md R6). -/
abbrev Byte := BitVec 8

/-- An address, the program counter, the stack pointer, a register pair (00_scope.md R6, R11). -/
abbrev Word := BitVec 16

/-- `hi ++ lo`: the first operand is the more significant (00_scope.md R10, R11). -/
abbrev mkWord (hi lo : Byte) : Word := hi ++ lo

/-- Bits 15 to 8 of a word. -/
abbrev hiByte (w : Word) : Byte := w.extractLsb' 8 8

/-- Bits 7 to 0 of a word. -/
abbrev loByte (w : Word) : Byte := w.extractLsb' 0 8

end Sys2Proof
end

