-- ==== Sys2Proof/Config.lean ====
section
/-! DEFINITION. What the source leaves to the system built around the processor (spec 00_scope.md R8): the types of the
model's parameters, their defaults, and the free values. The parameters are fields of State (as plain data), so that a
statement about every state is a statement about every choice of them. -/

namespace Sys2Proof

/-- What lies behind an address (`MemoryMap`, 20_memory.md R58, 92_eei_decisions.md D20). -/
inductive MemKind
  /-- Read/write memory: a read gives the last byte written. -/
  | ram
  /-- Read-only memory: a write cycle happens and is ignored. -/
  | rom
  /-- Nothing: a read gives a free value, a write is lost (U5). -/
  | absent
  /-- A device: reads and writes are handed to the environment. -/
  | device
  deriving DecidableEq, Repr

/-- A run of addresses `base` to `base + size - 1` of one kind. -/
structure Region where
  base : Nat
  size : Nat
  kind : MemKind
  deriving DecidableEq, Repr

/-- What the twelve opcodes with no table row do (30_encoding.md R92, D10; `alias8080A` is U1 of
93_implementation_defined.md). -/
inductive UnassignedPolicy
  | refuse
  | alias8080A
  deriving DecidableEq, Repr

/-- The intermediate carry after ANA and ANI (45_logical.md R231, D5). -/
inductive AnaAcRule
  | orBit3
  | one
  | zero
  deriving DecidableEq, Repr

/-- `EI_DELAY`: how many instructions after EI complete before an interrupt can be taken (R41, R325, D11). -/
inductive EiDelay
  | none
  | one
  deriving DecidableEq, Repr

/-- The parameters of 00_scope.md R8 that do not change while the machine runs. -/
structure Platform where
  /-- `MemoryMap`: the first region that holds an address gives its kind. -/
  regions : List Region
  /-- `MemoryMap`: the kind of an address in no region. -/
  background : MemKind
  /-- `IoDevices`: the input ports with no device behind them (R138). -/
  absentInputs : List Byte
  unassigned : UnassignedPolicy
  anaAc : AnaAcRule
  eiDelay : EiDelay
  deriving DecidableEq, Repr

/-- The defaults of 00_scope.md R8; all memory is read/write, "the spec's own choice for tests" (D20).
DESIGN CHOICE, safe (log 3). -/
def Platform.standard : Platform where
  regions := []
  background := .ram
  absentInputs := []
  unassigned := .refuse
  anaAc := .orBit3
  eiDelay := .one

/-- What a byte of memory reads as that nothing has written (initial contents: the spec gives none).
DESIGN CHOICE, unsafe (log 2). -/
def Config.unlistedByte : Byte := 0

/-- The free values: what a read gives where nothing answers, what an undriven bus carries, what Reset leaves in the
registers it does not clear (U3, U5, U6, U9; `ResetDraw`). Nothing is known of it; each draw uses a number of its own
DESIGN CHOICE, safe (log 7). -/
opaque Config.freeByte : Nat → BitVec 8

end Sys2Proof
end

