-- ==== Sys2Proof/Syntax.lean ====
section
/-! DEFINITION. The instructions: one constructor for each row of spec/opcode_table.json, in the table's order. -/

namespace Sys2Proof

/-- The seven 8-bit registers a program can name (10_state.md R21, R22); code 110 is no register. -/
inductive Reg
  | b | c | d | e | h | l | a
  deriving DecidableEq, Repr

/-- The 3-bit code of a register in the fields `ddd` and `sss` (10_state.md R21). -/
def Reg.code : Reg → BitVec 3
  | .b => 0
  | .c => 1
  | .d => 2
  | .e => 3
  | .h => 4
  | .l => 5
  | .a => 7

/-- One constructor per row of spec/opcode_table.json. A register operand is a register (the rows' constraint that the
field is not 110 cannot be broken); `data` and `port` are byte 2, `addr` and `data16` are `byte3 ++ byte2`
(30_encoding.md R81, R86), `vvv` is the field of RST (R84). -/
inductive Instr
  -- data transfer (40_data_transfer.md)
  | movRR (dst src : Reg)
  | movMR (src : Reg)
  | movRM (dst : Reg)
  | mviR (dst : Reg) (data : Byte)
  | mviM (data : Byte)
  | lda (addr : Word)
  | ldaxB
  | ldaxD
  | lhld (addr : Word)
  | lxiH (data16 : Word)
  | lxiD (data16 : Word)
  | lxiB (data16 : Word)
  | lxiSp (data16 : Word)
  | shld (addr : Word)
  | sta (addr : Word)
  | staxB
  | staxD
  | sphl
  | xchg
  | xthl
  | inPort (port : Byte)
  | outPort (port : Byte)
  -- control (41_control.md)
  | hlt
  | stc
  | cmc
  | ei
  | di
  | nop
  -- branch (42_branch.md)
  | jmp (addr : Word)
  | jc (addr : Word)
  | jnc (addr : Word)
  | jz (addr : Word)
  | jnz (addr : Word)
  | jp (addr : Word)
  | jm (addr : Word)
  | jpe (addr : Word)
  | jpo (addr : Word)
  | pchl
  | call (addr : Word)
  | cc (addr : Word)
  | cnc (addr : Word)
  | cz (addr : Word)
  | cnz (addr : Word)
  | cp (addr : Word)
  | cm (addr : Word)
  | cpe (addr : Word)
  | cpo (addr : Word)
  | ret
  | rc
  | rnc
  | rz
  | rnz
  | rp
  | rm
  | rpe
  | rpo
  | rst (vvv : BitVec 3)
  -- arithmetic (43_arithmetic.md)
  | addR (src : Reg)
  | adcR (src : Reg)
  | addM
  | adcM
  | adi (data : Byte)
  | aci (data : Byte)
  | dadB
  | dadD
  | dadH
  | dadSp
  | subR (src : Reg)
  | sbbR (src : Reg)
  | subM
  | sbbM
  | sui (data : Byte)
  | sbi (data : Byte)
  | daa
  -- stack operations (44_stack.md)
  | pushB
  | pushD
  | pushH
  | pushPsw
  | popB
  | popD
  | popH
  | popPsw
  -- logical (45_logical.md)
  | anaR (src : Reg)
  | anaM
  | ani (data : Byte)
  | xraR (src : Reg)
  | xraM
  | xri (data : Byte)
  | oraR (src : Reg)
  | oraM
  | ori (data : Byte)
  | cmpR (src : Reg)
  | cmpM
  | cpi (data : Byte)
  | cma
  | rlc
  | rrc
  | ral
  | rar
  -- increment and decrement (46_increment_decrement.md)
  | inrR (reg : Reg)
  | inrM
  | inxB
  | inxD
  | inxH
  | inxSp
  | dcrR (reg : Reg)
  | dcrM
  | dcxB
  | dcxD
  | dcxH
  | dcxSp
  deriving DecidableEq, Repr

end Sys2Proof
end

