-- ==== Sys2Proof/Decode.lean ====
section
/-! DEFINITION. The decoder, total on any bytes and refusing by name, the instruction lengths, and after them the
encoder (spec 30_encoding.md). -/

namespace Sys2Proof

/-- The register a 3-bit field names; 110 names none (10_state.md R21; 30_encoding.md R82). -/
def Reg.ofCode (code : BitVec 3) : Option Reg :=
  match code.toNat with
  | 0 => some .b
  | 1 => some .c
  | 2 => some .d
  | 3 => some .e
  | 4 => some .h
  | 5 => some .l
  | 7 => some .a
  | _ => none

/-- What the first byte selects (30_encoding.md R80, R81): an instruction of one byte (format F1), of two bytes that
still wants its byte 2 (F2), of three bytes that still wants its 16-bit operand (F3), or nothing (R92). -/
inductive Form
  | one (i : Instr)
  | two (withData : Byte → Instr)
  | three (withWord : Word → Instr)
  | unassigned

/-- Bits 7 and 6 of an opcode (30_encoding.md R89). -/
def opGroup (op : Byte) : BitVec 2 := op.extractLsb' 6 2

/-- Bits 5 to 3 of an opcode: `ddd`, `ooo`, `ccc` or `vvv` (30_encoding.md R81). -/
def opMid (op : Byte) : BitVec 3 := op.extractLsb' 3 3

/-- Bits 2 to 0 of an opcode: `sss` (30_encoding.md R81). -/
def opLow (op : Byte) : BitVec 3 := op.extractLsb' 0 3

/-- Opcodes `00......` (30_encoding.md R89, R90). -/
def decodeGroup0 (mid low : BitVec 3) : Form :=
  match low.toNat with
  | 0 => if mid = 0 then .one .nop else .unassigned
  | 1 =>
    match mid.toNat with
    | 0 => .three .lxiB
    | 1 => .one .dadB
    | 2 => .three .lxiD
    | 3 => .one .dadD
    | 4 => .three .lxiH
    | 5 => .one .dadH
    | 6 => .three .lxiSp
    | _ => .one .dadSp
  | 2 =>
    match mid.toNat with
    | 0 => .one .staxB
    | 1 => .one .ldaxB
    | 2 => .one .staxD
    | 3 => .one .ldaxD
    | 4 => .three .shld
    | 5 => .three .lhld
    | 6 => .three .sta
    | _ => .three .lda
  | 3 =>
    match mid.toNat with
    | 0 => .one .inxB
    | 1 => .one .dcxB
    | 2 => .one .inxD
    | 3 => .one .dcxD
    | 4 => .one .inxH
    | 5 => .one .dcxH
    | 6 => .one .inxSp
    | _ => .one .dcxSp
  | 4 =>
    match Reg.ofCode mid with
    | some reg => .one (.inrR reg)
    | none => .one .inrM
  | 5 =>
    match Reg.ofCode mid with
    | some reg => .one (.dcrR reg)
    | none => .one .dcrM
  | 6 =>
    match Reg.ofCode mid with
    | some dst => .two (.mviR dst)
    | none => .two .mviM
  | _ =>
    match mid.toNat with
    | 0 => .one .rlc
    | 1 => .one .rrc
    | 2 => .one .ral
    | 3 => .one .rar
    | 4 => .one .daa
    | 5 => .one .cma
    | 6 => .one .stc
    | _ => .one .cmc

/-- Opcodes `01dddsss`: MOV, and HLT where both fields are 110 (30_encoding.md R82). -/
def decodeGroup1 (mid low : BitVec 3) : Form :=
  match Reg.ofCode mid, Reg.ofCode low with
  | some dst, some src => .one (.movRR dst src)
  | some dst, none => .one (.movRM dst)
  | none, some src => .one (.movMR src)
  | none, none => .one .hlt

/-- Opcodes `10ooosss`: the accumulator operations on a register or memory (30_encoding.md R85). -/
def decodeGroup2 (mid low : BitVec 3) : Form :=
  match Reg.ofCode low with
  | some src =>
    match mid.toNat with
    | 0 => .one (.addR src)
    | 1 => .one (.adcR src)
    | 2 => .one (.subR src)
    | 3 => .one (.sbbR src)
    | 4 => .one (.anaR src)
    | 5 => .one (.xraR src)
    | 6 => .one (.oraR src)
    | _ => .one (.cmpR src)
  | none =>
    match mid.toNat with
    | 0 => .one .addM
    | 1 => .one .adcM
    | 2 => .one .subM
    | 3 => .one .sbbM
    | 4 => .one .anaM
    | 5 => .one .xraM
    | 6 => .one .oraM
    | _ => .one .cmpM

/-- Opcodes `11......` (30_encoding.md R85, R88, R89, R90). -/
def decodeGroup3 (mid low : BitVec 3) : Form :=
  match low.toNat with
  | 0 =>
    match mid.toNat with
    | 0 => .one .rnz
    | 1 => .one .rz
    | 2 => .one .rnc
    | 3 => .one .rc
    | 4 => .one .rpo
    | 5 => .one .rpe
    | 6 => .one .rp
    | _ => .one .rm
  | 1 =>
    match mid.toNat with
    | 0 => .one .popB
    | 1 => .one .ret
    | 2 => .one .popD
    | 3 => .unassigned
    | 4 => .one .popH
    | 5 => .one .pchl
    | 6 => .one .popPsw
    | _ => .one .sphl
  | 2 =>
    match mid.toNat with
    | 0 => .three .jnz
    | 1 => .three .jz
    | 2 => .three .jnc
    | 3 => .three .jc
    | 4 => .three .jpo
    | 5 => .three .jpe
    | 6 => .three .jp
    | _ => .three .jm
  | 3 =>
    match mid.toNat with
    | 0 => .three .jmp
    | 1 => .unassigned
    | 2 => .two .outPort
    | 3 => .two .inPort
    | 4 => .one .xthl
    | 5 => .one .xchg
    | 6 => .one .di
    | _ => .one .ei
  | 4 =>
    match mid.toNat with
    | 0 => .three .cnz
    | 1 => .three .cz
    | 2 => .three .cnc
    | 3 => .three .cc
    | 4 => .three .cpo
    | 5 => .three .cpe
    | 6 => .three .cp
    | _ => .three .cm
  | 5 =>
    match mid.toNat with
    | 0 => .one .pushB
    | 1 => .three .call
    | 2 => .one .pushD
    | 4 => .one .pushH
    | 6 => .one .pushPsw
    | _ => .unassigned
  | 6 =>
    match mid.toNat with
    | 0 => .two .adi
    | 1 => .two .aci
    | 2 => .two .sui
    | 3 => .two .sbi
    | 4 => .two .ani
    | 5 => .two .xri
    | 6 => .two .ori
    | _ => .two .cpi
  | _ => .one (.rst mid)

/-- What the first byte selects: the map of 30_encoding.md R90. -/
def decodeOpcode (op : Byte) : Form :=
  match (opGroup op).toNat with
  | 0 => decodeGroup0 (opMid op) (opLow op)
  | 1 => decodeGroup1 (opMid op) (opLow op)
  | 2 => decodeGroup2 (opMid op) (opLow op)
  | _ => decodeGroup3 (opMid op) (opLow op)

/-- The assigned opcode an unassigned one is commonly reported to act as; every other byte is itself
(93_implementation_defined.md U1, `alias_8080A`). PRESUMED, unsafe (log 11). -/
def aliasOpcode (op : Byte) : Byte :=
  match op.toNat with
  | 0x08 | 0x10 | 0x18 | 0x20 | 0x28 | 0x30 | 0x38 => 0x00
  | 0xCB => 0xC3
  | 0xD9 => 0xC9
  | 0xDD | 0xED | 0xFD => 0xCD
  | _ => op

/-- What the first byte selects under a policy for the twelve unassigned opcodes (R92, D10). -/
def decodeOpcodeUnder (policy : UnassignedPolicy) (op : Byte) : Form :=
  match policy with
  | .refuse => decodeOpcode op
  | .alias8080A => decodeOpcode (aliasOpcode op)

/-- Why a byte string is no instruction. -/
inductive DecodeError
  /-- The first byte is one of the twelve of 30_encoding.md R92. -/
  | unassignedOpcode (op : Byte)
  /-- The list ends before the instruction does (in memory this cannot happen: R94). -/
  | tooShort
  deriving DecidableEq, Repr

/-- The instruction at the head of a list of bytes, and the bytes after it (30_encoding.md R81, R86, R94). -/
def decode : List Byte → Except DecodeError (Instr × List Byte)
  | [] => .error .tooShort
  | op :: rest =>
    match decodeOpcode op with
    | .one i => .ok (i, rest)
    | .two f =>
      match rest with
      | data :: rest' => .ok (f data, rest')
      | [] => .error .tooShort
    | .three f =>
      match rest with
      | lo :: hi :: rest' => .ok (f (mkWord hi lo), rest')
      | _ => .error .tooShort
    | .unassigned => .error (.unassignedOpcode op)

/-- The twelve unassigned opcodes (30_encoding.md R92). -/
def unassignedOpcodes : List Byte := [0x08, 0x10, 0x18, 0x20, 0x28, 0x30, 0x38, 0xCB, 0xD9, 0xDD, 0xED, 0xFD]

/-- `Length(op)`, word for word as 30_encoding.md R87 gives it (for the assigned opcodes). -/
def opcodeLength (op : Byte) : Nat :=
  if op.extractLsb' 6 2 = 1 ∨ op.extractLsb' 6 2 = 2 then 1
  else if op.extractLsb' 6 2 = 0 then
    if op.extractLsb' 0 3 = 6 then 2
    else if op.extractLsb' 0 4 = 1 then 3
    else if op = 0x22 ∨ op = 0x2A ∨ op = 0x32 ∨ op = 0x3A then 3
    else 1
  else
    if op.extractLsb' 0 3 = 6 then 2
    else if op = 0xD3 ∨ op = 0xDB then 2
    else if op.extractLsb' 0 3 = 2 ∨ op.extractLsb' 0 3 = 4 then 3
    else if op = 0xC3 ∨ op = 0xCD then 3
    else 1

/-- `01dddsss`, `00ddd110` and the like: two fixed bits, a field in bits 5 to 3, a field or fixed bits in bits 2 to 0. -/
def opcodeByte (group : BitVec 2) (mid low : BitVec 3) : Byte := (group ++ mid ++ low : BitVec 8)

/-- An instruction of format F3: opcode, low byte, high byte (30_encoding.md R81, R86). -/
def encode3 (op : Byte) (w : Word) : List Byte := [op, loByte w, hiByte w]

/-- The bytes of an instruction, opcode first, from the `encoding` column of spec/opcode_table.json. -/
def encode : Instr → List Byte
  | .movRR dst src => [opcodeByte 0b01 dst.code src.code]
  | .movMR src => [opcodeByte 0b01 0b110 src.code]
  | .movRM dst => [opcodeByte 0b01 dst.code 0b110]
  | .mviR dst data => [opcodeByte 0b00 dst.code 0b110, data]
  | .mviM data => [0b00110110, data]
  | .lda addr => encode3 0b00111010 addr
  | .ldaxB => [0b00001010]
  | .ldaxD => [0b00011010]
  | .lhld addr => encode3 0b00101010 addr
  | .lxiH data16 => encode3 0b00100001 data16
  | .lxiD data16 => encode3 0b00010001 data16
  | .lxiB data16 => encode3 0b00000001 data16
  | .lxiSp data16 => encode3 0b00110001 data16
  | .shld addr => encode3 0b00100010 addr
  | .sta addr => encode3 0b00110010 addr
  | .staxB => [0b00000010]
  | .staxD => [0b00010010]
  | .sphl => [0b11111001]
  | .xchg => [0b11101011]
  | .xthl => [0b11100011]
  | .inPort port => [0b11011011, port]
  | .outPort port => [0b11010011, port]
  | .hlt => [0b01110110]
  | .stc => [0b00110111]
  | .cmc => [0b00111111]
  | .ei => [0b11111011]
  | .di => [0b11110011]
  | .nop => [0b00000000]
  | .jmp addr => encode3 0b11000011 addr
  | .jc addr => encode3 0b11011010 addr
  | .jnc addr => encode3 0b11010010 addr
  | .jz addr => encode3 0b11001010 addr
  | .jnz addr => encode3 0b11000010 addr
  | .jp addr => encode3 0b11110010 addr
  | .jm addr => encode3 0b11111010 addr
  | .jpe addr => encode3 0b11101010 addr
  | .jpo addr => encode3 0b11100010 addr
  | .pchl => [0b11101001]
  | .call addr => encode3 0b11001101 addr
  | .cc addr => encode3 0b11011100 addr
  | .cnc addr => encode3 0b11010100 addr
  | .cz addr => encode3 0b11001100 addr
  | .cnz addr => encode3 0b11000100 addr
  | .cp addr => encode3 0b11110100 addr
  | .cm addr => encode3 0b11111100 addr
  | .cpe addr => encode3 0b11101100 addr
  | .cpo addr => encode3 0b11100100 addr
  | .ret => [0b11001001]
  | .rc => [0b11011000]
  | .rnc => [0b11010000]
  | .rz => [0b11001000]
  | .rnz => [0b11000000]
  | .rp => [0b11110000]
  | .rm => [0b11111000]
  | .rpe => [0b11101000]
  | .rpo => [0b11100000]
  | .rst vvv => [opcodeByte 0b11 vvv 0b111]
  | .addR src => [opcodeByte 0b10 0b000 src.code]
  | .adcR src => [opcodeByte 0b10 0b001 src.code]
  | .addM => [0b10000110]
  | .adcM => [0b10001110]
  | .adi data => [0b11000110, data]
  | .aci data => [0b11001110, data]
  | .dadB => [0b00001001]
  | .dadD => [0b00011001]
  | .dadH => [0b00101001]
  | .dadSp => [0b00111001]
  | .subR src => [opcodeByte 0b10 0b010 src.code]
  | .sbbR src => [opcodeByte 0b10 0b011 src.code]
  | .subM => [0b10010110]
  | .sbbM => [0b10011110]
  | .sui data => [0b11010110, data]
  | .sbi data => [0b11011110, data]
  | .daa => [0b00100111]
  | .pushB => [0b11000101]
  | .pushD => [0b11010101]
  | .pushH => [0b11100101]
  | .pushPsw => [0b11110101]
  | .popB => [0b11000001]
  | .popD => [0b11010001]
  | .popH => [0b11100001]
  | .popPsw => [0b11110001]
  | .anaR src => [opcodeByte 0b10 0b100 src.code]
  | .anaM => [0b10100110]
  | .ani data => [0b11100110, data]
  | .xraR src => [opcodeByte 0b10 0b101 src.code]
  | .xraM => [0b10101110]
  | .xri data => [0b11101110, data]
  | .oraR src => [opcodeByte 0b10 0b110 src.code]
  | .oraM => [0b10110110]
  | .ori data => [0b11110110, data]
  | .cmpR src => [opcodeByte 0b10 0b111 src.code]
  | .cmpM => [0b10111110]
  | .cpi data => [0b11111110, data]
  | .cma => [0b00101111]
  | .rlc => [0b00000111]
  | .rrc => [0b00001111]
  | .ral => [0b00010111]
  | .rar => [0b00011111]
  | .inrR reg => [opcodeByte 0b00 reg.code 0b100]
  | .inrM => [0b00110100]
  | .inxB => [0b00000011]
  | .inxD => [0b00010011]
  | .inxH => [0b00100011]
  | .inxSp => [0b00110011]
  | .dcrR reg => [opcodeByte 0b00 reg.code 0b101]
  | .dcrM => [0b00110101]
  | .dcxB => [0b00001011]
  | .dcxD => [0b00011011]
  | .dcxH => [0b00101011]
  | .dcxSp => [0b00111011]

/-- The bytes of `nbits` bits of `w` and zeros above, three in all: how the opcode table numbers an instruction's bits
(the first byte is bits 7 to 0, the second bits 15 to 8, the third bits 23 to 16). -/
def tableBytes (nbits w : Nat) : List Byte :=
  let v := w % 2 ^ nbits
  [BitVec.ofNat 8 v, BitVec.ofNat 8 (v / 256), BitVec.ofNat 8 (v / 65536)]

/-- What the decoder reads from an instruction whose bits are `w`; none where it refuses. -/
def decodeTableWord (nbits w : Nat) : Option Instr :=
  match decode (tableBytes nbits w) with
  | .ok (i, _) => some i
  | .error _ => none

end Sys2Proof
end

