-- ==== Sys2Proof/Machine/Memory.lean ====
section
/-! DEFINITION. The contents of the 65,536 bytes of memory (spec 20_memory.md R50, R51) as a list of (address, byte) pairs
in one canonical form. What lies behind an address (memory, a device, nothing) is `Platform.kindAt` in Ops.lean. -/

namespace Sys2Proof.Machine

/-- Memory: addresses strictly rising, no entry equal to what an unlisted address reads as. -/
abbrev Memory := List Host.Cell

/-- The canonical form: addresses strictly rising and inside the 16-bit space, no entry equal to the unlisted byte. -/
abbrev Memory.wf (m : Memory) : Prop :=
  m.Pairwise (fun p q => p.1 < q.1) ∧ ∀ p ∈ m, p.1 < 65536 ∧ p.2 ≠ Config.unlistedByte

/-- The byte at address key `k`. -/
def Memory.readAt : Memory → Nat → Byte
  | [], _ => Config.unlistedByte
  | (a, v) :: rest, k => if a = k then v else Memory.readAt rest k

/-- An entry for `k` in front of the rest, or none where the byte is the unlisted one. -/
def Memory.put (k : Nat) (v : Byte) (rest : Memory) : Memory :=
  if v = Config.unlistedByte then rest else (k, v) :: rest

/-- Replace, insert or remove the entry of address key `k`, keeping the canonical form. -/
def Memory.writeAt : Memory → Nat → Byte → Memory
  | [], k, v => Memory.put k v []
  | (a, w) :: rest, k, v =>
    if a = k then Memory.put k v rest
    else if k < a then Memory.put k v ((a, w) :: rest)
    else (a, w) :: Memory.writeAt rest k v

/-- The byte stored at a 16-bit address. -/
def Memory.read (m : Memory) (a : Word) : Byte := m.readAt a.toNat

/-- Memory with the byte `v` stored at a 16-bit address. -/
def Memory.write (m : Memory) (a : Word) (v : Byte) : Memory := m.writeAt a.toNat v

end Sys2Proof.Machine
end

