-- ==== Sys2Proof/Machine/State.lean ====
section
/-! DEFINITION. The machine's state as plain data, the ways a step can stop, and the machine right after reset. -/

namespace Sys2Proof.Machine

/-- The five flags, each a piece of state of its own (10_state.md R25). -/
structure Flags where
  /-- S -/
  sign : Bool
  /-- Z -/
  zero : Bool
  /-- AC, intermediate carry (the source's CY1) -/
  ac : Bool
  /-- P -/
  parity : Bool
  /-- CY, carry (the source's CY2) -/
  carry : Bool
  deriving DecidableEq, Repr

/-- One access of the device that holds the bus (20_memory.md R71: "any number of reads and writes of memory and I/O of
its own"). -/
inductive DmaAccess
  | read (addr : Word)
  | write (addr : Word) (data : Byte)
  | input (port : Byte)
  | output (port : Byte) (data : Byte)
  deriving DecidableEq, Repr

/-- One Hold (60_exceptions.md R304): the holder's accesses in order, and how many clocks it lasts. -/
structure Hold where
  clocks : Nat
  accesses : List DmaAccess
  deriving DecidableEq, Repr

/-- What the environment does at one instruction boundary: the levels of RESET, HOLD and INT at one step of
60_exceptions.md R310, with what the holder does then and the bytes the interrupting device supplies if its request is
accepted in this step (R289, R290). DESIGN CHOICE, safe (log 4). -/
structure Pins where
  reset : Bool
  hold : Option Hold
  int : Option (List Byte)
  deriving DecidableEq, Repr

/-- No line is active. -/
def Pins.quiet : Pins := { reset := false, hold := none, int := none }

/-- What the environment does at one machine-cycle boundary inside an instruction: RESET (70_reset_and_hazards.md R322),
a Hold (R304), and how many clocks READY then keeps the cycle waiting (20_memory.md R72; none: for ever, U8).
DESIGN CHOICE, safe (log 5). -/
structure BusSlot where
  reset : Bool
  hold : Option Hold
  waits : Option Nat
  deriving DecidableEq, Repr

/-- Why the instruction in progress does not finish. DESIGN CHOICE, safe (log 9). -/
inductive Abandon
  /-- RESET was asserted inside it (70_reset_and_hazards.md R322). -/
  | reset
  /-- READY never came (20_memory.md R72, U8). -/
  | notReady
  deriving DecidableEq, Repr

/-- One bus cycle (20_memory.md R61 to R66), with its address and the byte on the data bus. -/
inductive BusCycle
  /-- the first byte of an instruction -/
  | fetch (addr : Word) (data : Byte)
  /-- a memory read, bytes 2 and 3 of an instruction among them -/
  | memRead (addr : Word) (data : Byte)
  | memWrite (addr : Word) (data : Byte)
  | stackRead (addr : Word) (data : Byte)
  | stackWrite (addr : Word) (data : Byte)
  | input (port : Byte) (data : Byte)
  | output (port : Byte) (data : Byte)
  /-- interrupt acknowledge; `fromHalt` when it ends a halt (60_exceptions.md R309) -/
  | intAck (addr : Word) (data : Byte) (fromHalt : Bool)
  | haltAck
  /-- a cycle of the device that holds the bus, with the byte it read or wrote -/
  | dma (access : DmaAccess) (data : Byte)
  deriving DecidableEq, Repr

/-- One stay in the Wait state (20_memory.md R60, R72; 60_exceptions.md R308): READY was absent inside the bus cycle that
`bus` lists as number `cycle` (from 0), and the output WAIT was active for so many clocks; none: for ever (U8). -/
structure WaitState where
  cycle : Nat
  clocks : Option Nat
  deriving DecidableEq, Repr

/-- The whole state. First the processor's own (10_state.md R20), then what is outside the chip (memory and the
parameters of 00_scope.md R8), then the model's own observers and counters (see INVENTORY.md). -/
structure State where
  a : Byte
  b : Byte
  c : Byte
  d : Byte
  e : Byte
  h : Byte
  l : Byte
  sp : Word
  pc : Word
  flags : Flags
  /-- the interrupt enable flip-flop INTE (R33) -/
  inte : Bool
  /-- R40 -/
  halted : Bool
  /-- `ei_inhibit` (R41) -/
  eiInhibit : Bool
  /-- the instruction register (R42) -/
  ir : Byte
  /-- the hold acknowledge flip-flop (R42) -/
  hlda : Bool
  mem : Memory
  platform : Platform
  /-- what the environment does at each coming step; empty: no line is active -/
  pins : List Pins
  /-- what the environment does at each coming machine-cycle boundary; empty: nothing -/
  slots : List BusSlot
  /-- the bytes devices answer to coming reads of them, in order; empty: free values. DESIGN CHOICE, safe (log 6) -/
  answers : List Byte
  /-- how many free values have been drawn. DESIGN CHOICE, safe (log 7) -/
  draws : Nat
  /-- the instruction in progress has been cut short -/
  abandoned : Option Abandon
  /-- the bus cycles so far, in order. DESIGN CHOICE, safe (log 15) -/
  bus : List BusCycle
  /-- the Wait states so far, in order: where the output WAIT was active (R308). DESIGN CHOICE, safe (log 15) -/
  waitStates : List WaitState
  /-- clock cycles so far (R340). DESIGN CHOICE, safe (log 14) -/
  clocks : Nat
  deriving DecidableEq, Repr

/-- The machine stops. The hardware has no synchronous exception (60_exceptions.md R300), so no instruction's meaning
raises one. -/
inductive Fault
  /-- A bus cycle waits for a READY that never comes: "stuck" (20_memory.md R72, 93_implementation_defined.md U8).
  Raised by `settle`, at the end of the step whose `slots` withhold READY for ever. Safe: the hardware hangs there. -/
  | readyWithheld
  deriving DecidableEq, Repr

/-- The spec gives the situation no meaning (00_scope.md R18), or the model has none yet. -/
inductive Refusal
  /-- An instruction without a meaning in this model; raised by exec's arm only. Safe. -/
  | notModelled (mnemonic : String)
  /-- The first byte of an instruction, fetched or supplied, is one of the twelve of 30_encoding.md R92, under the policy
  `refuse` (R18, D10). Raised by `runFetched` and `runSupplied`. Safe: the chip does something the spec does not know. -/
  | unassignedOpcode (op : BitVec 8)
  /-- The interrupting device supplied E3H (60_exceptions.md R294, D15). Raised by `acceptInterrupt`. Safe. -/
  | xthlAsInterruptInstruction
  deriving DecidableEq, Repr

/-- The machine right after Reset: pc, IR, INTE, hlda, halted and ei_inhibit as 10_state.md R44 says. The registers,
the stack pointer and the flags, which R44 leaves unspecified, are zero here: DESIGN CHOICE, unsafe (log 1). Memory has
nothing listed (log 2), the platform is the standard one (log 3), no line is active (logs 4, 5). -/
def State.reset : State where
  a := 0
  b := 0
  c := 0
  d := 0
  e := 0
  h := 0
  l := 0
  sp := 0
  pc := 0
  flags := { sign := false, zero := false, ac := false, parity := false, carry := false }
  inte := false
  halted := false
  eiInhibit := false
  ir := 0
  hlda := false
  mem := []
  platform := Platform.standard
  pins := []
  slots := []
  answers := []
  draws := 0
  abandoned := none
  bus := []
  waitStates := []
  clocks := 0

end Sys2Proof.Machine
end

