-- ==== Sys2Proof/Machine/Flags.lean ====
section
/-! DEFINITION. Every flag computation: parity8, SetSZP, Add8, Sub8 (spec 00_scope.md R16), the conditions (R17), the flag
byte (10_state.md R27), AndAC (45_logical.md R231), the decimal adjustment (43_arithmetic.md R207), the 16-bit addition
(R197). -/

namespace Sys2Proof.Machine

/-- The number of 1 bits (00_scope.md R10). -/
def popcount (v : Byte) : Nat := ((List.range 8).filter fun i => v.getLsbD i).length

/-- 1 when the number of 1 bits is even (00_scope.md R16). -/
def parity8 (v : Byte) : Bool := popcount v % 2 == 0

/-- The flags with S, Z, P set from an 8-bit result (`SetSZP`, 00_scope.md R16). -/
def Flags.setSZP (f : Flags) (v : Byte) : Flags :=
  { f with sign := v.getLsbD 7, zero := v == 0, parity := parity8 v }

/-- All five flags from a result, a carry and an intermediate carry. -/
def Flags.ofResult (res : Byte) (carry ac : Bool) : Flags :=
  { sign := res.getLsbD 7, zero := res == 0, ac := ac, parity := parity8 res, carry := carry }

/-- What an 8-bit addition or subtraction gives. -/
structure Sum8 where
  res : Byte
  carry : Bool
  ac : Bool
  deriving DecidableEq, Repr

/-- `Add8(a, b, cin)` (00_scope.md R16): the carry out of bit 7 and the carry out of bit 3. -/
def add8 (a b : Byte) (cin : Bool) : Sum8 :=
  let sum : BitVec 9 := a.setWidth 9 + b.setWidth 9 + (BitVec.ofBool cin).setWidth 9
  let low : BitVec 5 := (a.extractLsb' 0 4).setWidth 5 + (b.extractLsb' 0 4).setWidth 5 + (BitVec.ofBool cin).setWidth 5
  { res := sum.extractLsb' 0 8, carry := sum.getLsbD 8, ac := low.getLsbD 4 }

/-- `Sub8(a, b, bin)` (00_scope.md R16): the complement is added; CY is the borrow, AC is not inverted. -/
def sub8 (a b : Byte) (bin : Bool) : Sum8 :=
  let r := add8 a (~~~b) (!bin)
  { r with carry := !r.carry }

/-- `AndAC(a, v)` (45_logical.md R231). -/
def andAC (rule : AnaAcRule) (a v : Byte) : Bool :=
  match rule with
  | .orBit3 => (a ||| v).getLsbD 3
  | .one => true
  | .zero => false

/-- The correction DAA adds to A, and the carry it leaves (43_arithmetic.md R207). Both tests are on A before the
instruction. -/
def daaCorrection (a : Byte) (ac carry : Bool) : Byte × Bool :=
  let lo := a.extractLsb' 0 4
  let hi := a.extractLsb' 4 4
  let low : Byte := if ac || decide (9 < lo) then 0x06 else 0x00
  if carry || decide (9 < hi) || (decide (9 ≤ hi) && decide (9 < lo)) then (low + 0x60, true) else (low, carry)

/-- A 16-bit addition with its carry out of bit 15 (43_arithmetic.md R197). -/
def add16 (x y : Word) : Word × Bool :=
  let sum : BitVec 17 := x.setWidth 17 + y.setWidth 17
  (sum.extractLsb' 0 16, sum.getLsbD 16)

/-- `FlagByte()`: S Z 0 AC 0 P 1 CY (10_state.md R27). -/
def Flags.toByte (f : Flags) : Byte :=
  BitVec.ofBool f.sign ++ BitVec.ofBool f.zero ++ 0#1 ++ BitVec.ofBool f.ac ++ 0#1 ++ BitVec.ofBool f.parity ++ 1#1 ++
    BitVec.ofBool f.carry

/-- The flags POP PSW loads: bits 7, 6, 4, 2, 0; bits 5, 3, 1 are ignored (10_state.md R27, 44_stack.md R228). -/
def Flags.ofByte (v : Byte) : Flags :=
  { sign := v.getLsbD 7, zero := v.getLsbD 6, ac := v.getLsbD 4, parity := v.getLsbD 2, carry := v.getLsbD 0 }

/-- The eight conditions (00_scope.md R17; 30_encoding.md R88). -/
inductive Cond
  | nz | z | nc | c | po | pe | p | m
  deriving DecidableEq, Repr

/-- `Cond(ccc)` (00_scope.md R17). -/
def Cond.holds (cond : Cond) (f : Flags) : Bool :=
  match cond with
  | .nz => !f.zero
  | .z => f.zero
  | .nc => !f.carry
  | .c => f.carry
  | .po => !f.parity
  | .pe => f.parity
  | .p => !f.sign
  | .m => f.sign

end Sys2Proof.Machine
end

