-- ==== Sys2Proof/Machine/Operands.lean ====
section
/-! DEFINITION. Every register operand form: the registers by code, the pairs (spec 00_scope.md R11; 10_state.md R21 to
R24), and the plain updates of one piece of state. The memory and port operands are in Ops.lean. -/

namespace Sys2Proof.Machine

/-- `x[i]` (00_scope.md R11). -/
def State.getReg (s : State) : Reg → Byte
  | .b => s.b
  | .c => s.c
  | .d => s.d
  | .e => s.e
  | .h => s.h
  | .l => s.l
  | .a => s.a

/-- `x[i] <- v` (00_scope.md R11). -/
def State.setReg (s : State) (r : Reg) (v : Byte) : State :=
  match r with
  | .b => { s with b := v }
  | .c => { s with c := v }
  | .d => { s with d := v }
  | .e => { s with e := v }
  | .h => { s with h := v }
  | .l => { s with l := v }
  | .a => { s with a := v }

/-- `A <- v`. -/
def State.setA (s : State) (v : Byte) : State := { s with a := v }

/-- `BC`, B the high half (10_state.md R23). -/
def State.bc (s : State) : Word := mkWord s.b s.c

/-- `DE`, D the high half (10_state.md R23). -/
def State.de (s : State) : Word := mkWord s.d s.e

/-- `HL`, H the high half (10_state.md R23); the address of the memory operand (R24). -/
def State.hl (s : State) : Word := mkWord s.h s.l

/-- `BC <- v` (00_scope.md R11). -/
def State.setBc (s : State) (v : Word) : State := { s with b := hiByte v, c := loByte v }

/-- `DE <- v` (00_scope.md R11). -/
def State.setDe (s : State) (v : Word) : State := { s with d := hiByte v, e := loByte v }

/-- `HL <- v` (00_scope.md R11). -/
def State.setHl (s : State) (v : Word) : State := { s with h := hiByte v, l := loByte v }

/-- `SP <- v`. -/
def State.setSp (s : State) (v : Word) : State := { s with sp := v }

/-- `pc <- v` (00_scope.md R18). -/
def State.setPc (s : State) (v : Word) : State := { s with pc := v }

/-- The flags replaced. -/
def State.setFlags (s : State) (f : Flags) : State := { s with flags := f }

/-- `CY <- v`, the other flags kept. -/
def State.setCarry (s : State) (v : Bool) : State := { s with flags := { s.flags with carry := v } }

/-- `n` clock cycles more (70_reset_and_hazards.md R340). -/
def State.tick (s : State) (n : Nat) : State := { s with clocks := s.clocks + n }

/-- The PSW pair: A the high half, the flag byte the low (10_state.md R23, R27). -/
def State.psw (s : State) : Word := mkWord s.a s.flags.toByte

/-- `PSW <- v` (44_stack.md R228). -/
def State.setPsw (s : State) (v : Word) : State := { s with a := hiByte v, flags := Flags.ofByte (loByte v) }

end Sys2Proof.Machine
end

