-- ==== Sys2Proof/Machine/Ops.lean ====
section
/-! DEFINITION. The named operations every meaning is built from: the bus (spec 20_memory.md), the accumulator operations,
the stack (00_scope.md R15), jumps, calls and returns, the acceptance of an interrupt (60_exceptions.md R288), Hold
(R304), Reset (70_reset_and_hazards.md R320). -/

namespace Sys2Proof.Machine

/-- What a step or a meaning answers. -/
abbrev Outcome := Host.Outcome State Fault Refusal

/-! ### What lies behind an address or a port (20_memory.md R52, R58) -/

/-- Whether an address lies in a region. -/
def regionHolds (r : Region) (a : Word) : Bool := decide (r.base ≤ a.toNat) && decide (a.toNat < r.base + r.size)

/-- The kind of an address in a list of regions, the first that holds it deciding. -/
def kindIn (background : MemKind) (a : Word) : List Region → MemKind
  | [] => background
  | r :: rest => if regionHolds r a then r.kind else kindIn background a rest

/-- `MemoryMap` at an address (D20). -/
def State.kindAt (s : State) (a : Word) : MemKind := kindIn s.platform.background a s.platform.regions

/-- The byte memory holds at an address (no bus cycle). -/
def State.peek (s : State) (a : Word) : Byte := s.mem.read a

/-- A free value, with a number of its own (U3, U5, U6, U9; log 7). -/
def State.draw (s : State) : Byte × State := (Config.freeByte s.draws, { s with draws := s.draws + 1 })

/-- What a device puts on the bus: its next answer, a free value where none is listed (log 6). -/
def State.deviceAnswer (s : State) : Byte × State :=
  match s.answers with
  | v :: rest => (v, { s with answers := rest })
  | [] => s.draw

/-- What a read of an address gives (20_memory.md R58): memory its byte, a device its answer, an empty address a free
value. -/
def State.rawRead (s : State) (a : Word) : Byte × State :=
  match s.kindAt a with
  | .ram => (s.peek a, s)
  | .rom => (s.peek a, s)
  | .device => s.deviceAnswer
  | .absent => s.draw

/-- What a write does (20_memory.md R58): read/write memory takes the byte; read-only memory and an empty address lose
it; a device's byte leaves the machine (it stands in `bus`). -/
def State.rawWrite (s : State) (a : Word) (v : Byte) : State :=
  match s.kindAt a with
  | .ram => { s with mem := s.mem.write a v }
  | .rom => s
  | .device => s
  | .absent => s

/-- What an input port gives (40_data_transfer.md R138): its device's answer, a free value where there is no device. -/
def State.rawInput (s : State) (port : Byte) : Byte × State :=
  if port ∈ s.platform.absentInputs then s.draw else s.deviceAnswer

/-! ### Bus cycles (20_memory.md R57, R65, R66, R71, R72) -/

/-- A bus cycle is recorded. -/
def State.logCycle (s : State) (c : BusCycle) : State := { s with bus := s.bus ++ [c] }

/-- One access of the holding device (20_memory.md R71); it cannot touch the processor's registers. -/
def State.dmaAccess (s : State) (x : DmaAccess) : State :=
  match x with
  | .read a => let r := s.rawRead a; r.2.logCycle (.dma x r.1)
  | .write a v => (s.rawWrite a v).logCycle (.dma x v)
  | .input p => let r := s.rawInput p; r.2.logCycle (.dma x r.1)
  | .output _ v => s.logCycle (.dma x v)

/-- The Hold state is entered: hlda is 1 and the holder uses the bus (60_exceptions.md R304). Its clocks count (R340). -/
def State.enterHold (s : State) (g : Hold) : State :=
  (g.accesses.foldl State.dmaAccess { s with hlda := true }).tick g.clocks

/-- HOLD has gone inactive (60_exceptions.md R304). DEDUCED, safe (log 17). -/
def State.leaveHold (s : State) : State := { s with hlda := false }

/-- A slot's Hold, granted before the cycle and released before it begins. -/
def State.slotHold (s : State) (hold : Option Hold) : State :=
  match hold with
  | some g => (s.enterHold g).leaveHold
  | none => s

/-- The Wait state is entered in the coming bus cycle: the output WAIT is active for so many clocks (20_memory.md R60,
R72; 60_exceptions.md R308); none: for ever (U8). All else survives. -/
def State.enterWait (s : State) (clocks : Option Nat) : State :=
  { s with waitStates := s.waitStates ++ [{ cycle := s.bus.length, clocks := clocks }] }

/-- A slot's Wait (20_memory.md R72): READY there at once, after whole clock periods, or never (U8). -/
def State.slotWait (s : State) (waits : Option Nat) : State :=
  match waits with
  | some n => if n = 0 then s else (s.enterWait (some n)).tick n
  | none => { s.enterWait none with abandoned := some .notReady }

/-- A machine-cycle boundary: RESET over everything, then Hold, then the cycle with its Wait states (R298, D29). An
instruction already cut short has no more cycles. -/
def State.beginCycle (s : State) : State :=
  match s.abandoned with
  | some _ => s
  | none =>
    match s.slots with
    | [] => s
    | slot :: rest =>
      if slot.reset then { s with slots := rest, abandoned := some .reset }
      else (({ s with slots := rest }).slotHold slot.hold).slotWait slot.waits

/-- A cycle that reads: `src` is what answers, `mk` the record of the cycle. In an instruction cut short no cycle takes
place and the value is free (nothing of it survives: `settle`). -/
def State.readCycle (s : State) (src : State → Byte × State) (mk : Byte → BusCycle) : Byte × State :=
  let s1 := s.beginCycle
  match s1.abandoned with
  | some _ => (Config.freeByte s1.draws, s1)
  | none => let r := src s1; (r.1, r.2.logCycle (mk r.1))

/-- A cycle that writes, or carries no data. -/
def State.writeCycle (s : State) (dst : State → State) (c : BusCycle) : State :=
  let s1 := s.beginCycle
  match s1.abandoned with
  | some _ => s1
  | none => (dst s1).logCycle c

/-- `MemRead(addr, 1)` (00_scope.md R13). -/
def State.readMem (s : State) (a : Word) : Byte × State := s.readCycle (fun t => t.rawRead a) (.memRead a)

/-- `MemWrite(addr, 1, v)` (00_scope.md R13). -/
def State.writeMem (s : State) (a : Word) (v : Byte) : State := s.writeCycle (fun t => t.rawWrite a v) (.memWrite a v)

/-- A read cycle with the STK status (20_memory.md R62). -/
def State.readStack (s : State) (a : Word) : Byte × State := s.readCycle (fun t => t.rawRead a) (.stackRead a)

/-- A write cycle with the STK status (20_memory.md R62). -/
def State.writeStack (s : State) (a : Word) (v : Byte) : State := s.writeCycle (fun t => t.rawWrite a v) (.stackWrite a v)

/-- `IoRead(port)` (00_scope.md R13). -/
def State.readPort (s : State) (p : Byte) : Byte × State := s.readCycle (fun t => t.rawInput p) (.input p)

/-- `IoWrite(port, v)` (00_scope.md R13): the byte goes to the device, as the cycle recorded in `bus`. -/
def State.writePort (s : State) (p : Byte) (v : Byte) : State := s.writeCycle id (.output p v)

/-- `Fetch8()` for the first byte of an instruction: the M1 cycle (00_scope.md R14). -/
def State.fetchOpcode (s : State) : Byte × State :=
  let r := s.readCycle (fun t => t.rawRead s.pc) (.fetch s.pc)
  (r.1, r.2.setPc (s.pc + 1))

/-- `Fetch8()` for byte 2 or 3 (00_scope.md R14; an ordinary memory read, 20_memory.md R63). -/
def State.fetch8 (s : State) : Byte × State :=
  let r := s.readMem s.pc
  (r.1, r.2.setPc (s.pc + 1))

/-- `Fetch16()`: low byte first (00_scope.md R14). -/
def State.fetch16 (s : State) : Word × State :=
  let lo := s.fetch8
  let hi := lo.2.fetch8
  (mkWord hi.1 lo.1, hi.2)

/-! ### The stack (00_scope.md R15) -/

/-- `Push16(v)`: high byte to SP-1, low byte to SP-2, then SP is 2 lower. -/
def State.push16 (s : State) (v : Word) : State :=
  ((s.writeStack (s.sp - 1) (hiByte v)).writeStack (s.sp - 2) (loByte v)).setSp (s.sp - 2)

/-- `Pop16()`: low byte from SP, high byte from SP+1, then SP is 2 higher. -/
def State.pop16 (s : State) : Word × State :=
  let lo := s.readStack s.sp
  let hi := lo.2.readStack (s.sp + 1)
  (mkWord hi.1 lo.1, hi.2.setSp (s.sp + 2))

/-! ### The accumulator operations (43_arithmetic.md, 45_logical.md) -/

/-- A and all five flags from an 8-bit sum. -/
def State.setSum (s : State) (r : Sum8) : State := { s with a := r.res, flags := Flags.ofResult r.res r.carry r.ac }

/-- ADD, ADC and their forms: `Add8(A, v, cin)` (43_arithmetic.md R191, R192). -/
def State.addA (s : State) (v : Byte) (cin : Bool) : State := s.setSum (add8 s.a v cin)

/-- SUB, SBB and their forms: `Sub8(A, v, bin)` (43_arithmetic.md R201, R202). -/
def State.subA (s : State) (v : Byte) (bin : Bool) : State := s.setSum (sub8 s.a v bin)

/-- CMP and its forms: the flags of SUB, A not written (45_logical.md R241). -/
def State.cmpA (s : State) (v : Byte) : State :=
  let r := sub8 s.a v false
  s.setFlags (Flags.ofResult r.res r.carry r.ac)

/-- A from a logical operation: S, Z, P from it, CY cleared, AC as given (45_logical.md R230). -/
def State.setLogic (s : State) (res : Byte) (ac : Bool) : State :=
  { s with a := res, flags := Flags.ofResult res false ac }

/-- ANA and its forms (45_logical.md R232). -/
def State.andA (s : State) (v : Byte) : State := s.setLogic (s.a &&& v) (andAC s.platform.anaAc s.a v)

/-- XRA and its forms (45_logical.md R235). -/
def State.xorA (s : State) (v : Byte) : State := s.setLogic (s.a ^^^ v) false

/-- ORA and its forms (45_logical.md R238). -/
def State.orA (s : State) (v : Byte) : State := s.setLogic (s.a ||| v) false

/-- The value after INR and the flags it leaves: CY kept (46_increment_decrement.md R261). -/
def incFlags (f : Flags) (v : Byte) : Byte × Flags :=
  let r := add8 v 1 false
  (r.res, { (f.setSZP r.res) with ac := r.ac })

/-- The value after DCR and the flags it leaves: CY kept (46_increment_decrement.md R267). -/
def decFlags (f : Flags) (v : Byte) : Byte × Flags :=
  let r := sub8 v 1 false
  (r.res, { (f.setSZP r.res) with ac := r.ac })

/-- DAD: HL and CY, the other flags kept (43_arithmetic.md R197). -/
def State.dad (s : State) (v : Word) : State :=
  let r := add16 s.hl v
  (s.setHl r.1).setCarry r.2

/-- DAA (43_arithmetic.md R207). -/
def State.decimalAdjust (s : State) : State :=
  let k := daaCorrection s.a s.flags.ac s.flags.carry
  let r := add8 s.a k.1 false
  { s with a := r.res, flags := Flags.ofResult r.res k.2 r.ac }

/-- A rotate: A and CY, the other flags kept (45_logical.md R245 to R248). -/
def State.setRotate (s : State) (res : Byte) (carry : Bool) : State := ({ s with a := res }).setCarry carry

/-! ### Jumps, calls, returns (42_branch.md) -/

/-- A conditional jump: 10 clock cycles either way (42_branch.md R150, R152). -/
def State.jumpIf (s : State) (cond : Cond) (target : Word) : State :=
  (if cond.holds s.flags then s.setPc target else s).tick 10

/-- `Push16(pc); pc <- target` (42_branch.md R161, R186). -/
def State.callTo (s : State) (target : Word) : State := (s.push16 s.pc).setPc target

/-- A conditional call: 17 clock cycles taken, 11 not (42_branch.md R162; R342). -/
def State.callIf (s : State) (cond : Cond) (target : Word) : State :=
  if cond.holds s.flags then (s.callTo target).tick 17 else s.tick 11

/-- `pc <- Pop16()`: the return, also from an interrupt (42_branch.md R170; 60_exceptions.md R295). -/
def State.returnTo (s : State) : State :=
  let r := s.pop16
  r.2.setPc r.1

/-- A conditional return: 11 clock cycles taken, 5 not (42_branch.md R171; R342). -/
def State.returnIf (s : State) (cond : Cond) : State :=
  if cond.holds s.flags then s.returnTo.tick 11 else s.tick 5

/-! ### Interrupt, halt, Reset (60_exceptions.md, 70_reset_and_hazards.md) -/

/-- What the interrupting device puts on the bus: its next byte, a free value where it supplies none (R289, R290, U6,
U9). DEDUCED, safe (log 20). -/
def supply (bytes : List Byte) (s : State) : Byte × State :=
  match bytes with
  | v :: _ => (v, s)
  | [] => s.draw

/-- The acceptance of an interrupt, up to its first byte (60_exceptions.md R288): further interrupts disabled, the halt
ended, the acknowledge cycle (status HLTA too when it ends a halt, R309), IR loaded; pc is on the address bus and is not
incremented, and nothing is saved. -/
def State.acknowledge (s : State) (bytes : List Byte) : Byte × State :=
  let s1 := { s with inte := false, halted := false }
  let r := s1.readCycle (supply bytes) (fun v => .intAck s.pc v s.halted)
  (r.1, { r.2 with ir := r.1 })

/-- `Fetch8()` during an interrupt instruction (60_exceptions.md R290, R291): an ordinary memory-read cycle whose byte
the device supplies; pc is not changed. -/
def State.suppliedByte (s : State) (bytes : List Byte) : Byte × State := s.readCycle (supply bytes) (.memRead s.pc)

/-- Whether an interrupt requested at this instruction boundary is accepted (60_exceptions.md R287; the Hold state is
decided before). -/
def State.acceptsInterrupt (s : State) : Bool := s.inte && !s.eiInhibit

/-- RESET (70_reset_and_hazards.md R320): four pieces of state cleared, halted and ei_inhibit too, and the thirteen
others are free values (`ResetDraw`, R44, U3). Memory is not touched.
DEDUCED, safe (logs 10, 22). -/
def State.resetLine (s : State) : State :=
  let free := fun i => Config.freeByte (s.draws + i)
  { s with
    pc := 0, ir := 0, inte := false, hlda := false, halted := false, eiInhibit := false
    a := free 0, b := free 1, c := free 2, d := free 3, e := free 4, h := free 5, l := free 6
    sp := mkWord (free 7) (free 8), flags := Flags.ofByte (free 9)
    draws := s.draws + 10, abandoned := none }

/-- The end of a step: an instruction cut short by RESET is followed by it (R322); one whose cycle READY never ends is
stuck (R72, U8). DEDUCED, safe (log 8). -/
def settle (s : State) : Outcome :=
  match s.abandoned with
  | none => .next s
  | some .reset => .next s.resetLine
  | some .notReady => .fault .readyWithheld

/-- The end of an instruction: `if op != FBH then ei_inhibit <- 0` (60_exceptions.md R310; 10_state.md R41).
DEDUCED, safe (log 21). -/
def finish (op : Byte) (o : Outcome) : Outcome :=
  match o with
  | .next s => settle (if op = 0xFB then s else { s with eiInhibit := false })
  | .fault r => .fault r
  | .refused r => .refused r

end Sys2Proof.Machine
end

