-- ==== Sys2Proof/Machine/Arithmetic.lean ====
section
/-! DEFINITION. The meanings of the arithmetic instructions (spec 43_arithmetic.md). The 8-bit ones write A and all five
flags; DAD writes HL and CY only (R190). -/

namespace Sys2Proof.Machine

/-- ADD r (R191). -/
def execAddR (src : Reg) (s : State) : Outcome := .next ((s.addA (s.getReg src) false).tick 4)

/-- ADD M (R193). -/
def execAddM (s : State) : Outcome :=
  let m := s.readMem s.hl
  .next ((m.2.addA m.1 false).tick 7)

/-- ADC r (R192). -/
def execAdcR (src : Reg) (s : State) : Outcome := .next ((s.addA (s.getReg src) s.flags.carry).tick 4)

/-- ADC M (R194). -/
def execAdcM (s : State) : Outcome :=
  let m := s.readMem s.hl
  .next ((m.2.addA m.1 s.flags.carry).tick 7)

/-- ADI data (R195). -/
def execAdi (data : Byte) (s : State) : Outcome := .next ((s.addA data false).tick 7)

/-- ACI data (R196). -/
def execAci (data : Byte) (s : State) : Outcome := .next ((s.addA data s.flags.carry).tick 7)

/-- DAD B (R197): two internal cycles, none on the bus. -/
def execDadB (s : State) : Outcome := .next ((s.dad s.bc).tick 10)

/-- DAD D (R198): two internal cycles, none on the bus. -/
def execDadD (s : State) : Outcome := .next ((s.dad s.de).tick 10)

/-- DAD H (R199): two internal cycles, none on the bus. -/
def execDadH (s : State) : Outcome := .next ((s.dad s.hl).tick 10)

/-- DAD SP (R200): two internal cycles, none on the bus. -/
def execDadSp (s : State) : Outcome := .next ((s.dad s.sp).tick 10)

/-- SUB r (R201). -/
def execSubR (src : Reg) (s : State) : Outcome := .next ((s.subA (s.getReg src) false).tick 4)

/-- SUB M (R203). -/
def execSubM (s : State) : Outcome :=
  let m := s.readMem s.hl
  .next ((m.2.subA m.1 false).tick 7)

/-- SBB r (R202). -/
def execSbbR (src : Reg) (s : State) : Outcome := .next ((s.subA (s.getReg src) s.flags.carry).tick 4)

/-- SBB M (R204). -/
def execSbbM (s : State) : Outcome :=
  let m := s.readMem s.hl
  .next ((m.2.subA m.1 s.flags.carry).tick 7)

/-- SUI data (R205). -/
def execSui (data : Byte) (s : State) : Outcome := .next ((s.subA data false).tick 7)

/-- SBI data (R206). -/
def execSbi (data : Byte) (s : State) : Outcome := .next ((s.subA data s.flags.carry).tick 7)

/-- DAA (R207). -/
def execDaa (s : State) : Outcome := .next (s.decimalAdjust.tick 4)

end Sys2Proof.Machine
end

