-- ==== Sys2Proof/Machine/Branch.lean ====
section
/-! DEFINITION. The meanings of the branch instructions (spec 42_branch.md). None writes a flag. pc already points past
the instruction's bytes, so the pushed value is the return address (R150); for an instruction supplied by an
interrupting device it is the next instruction of the interrupted program (60_exceptions.md R293). -/

namespace Sys2Proof.Machine

/-- JMP addr (R151). -/
def execJmp (addr : Word) (s : State) : Outcome := .next ((s.setPc addr).tick 10)

/-- JC addr (R152). -/
def execJc (addr : Word) (s : State) : Outcome := .next (s.jumpIf .c addr)

/-- JNC addr (R153). -/
def execJnc (addr : Word) (s : State) : Outcome := .next (s.jumpIf .nc addr)

/-- JZ addr (R154). -/
def execJz (addr : Word) (s : State) : Outcome := .next (s.jumpIf .z addr)

/-- JNZ addr (R155). -/
def execJnz (addr : Word) (s : State) : Outcome := .next (s.jumpIf .nz addr)

/-- JP addr (R156). -/
def execJp (addr : Word) (s : State) : Outcome := .next (s.jumpIf .p addr)

/-- JM addr (R157). -/
def execJm (addr : Word) (s : State) : Outcome := .next (s.jumpIf .m addr)

/-- JPE addr (R158). -/
def execJpe (addr : Word) (s : State) : Outcome := .next (s.jumpIf .pe addr)

/-- JPO addr (R159). -/
def execJpo (addr : Word) (s : State) : Outcome := .next (s.jumpIf .po addr)

/-- PCHL (R160). -/
def execPchl (s : State) : Outcome := .next ((s.setPc s.hl).tick 5)

/-- CALL addr (R161). -/
def execCall (addr : Word) (s : State) : Outcome := .next ((s.callTo addr).tick 17)

/-- CC addr (R162). -/
def execCc (addr : Word) (s : State) : Outcome := .next (s.callIf .c addr)

/-- CNC addr (R163). -/
def execCnc (addr : Word) (s : State) : Outcome := .next (s.callIf .nc addr)

/-- CZ addr (R164). -/
def execCz (addr : Word) (s : State) : Outcome := .next (s.callIf .z addr)

/-- CNZ addr (R165). -/
def execCnz (addr : Word) (s : State) : Outcome := .next (s.callIf .nz addr)

/-- CP addr (R166). -/
def execCp (addr : Word) (s : State) : Outcome := .next (s.callIf .p addr)

/-- CM addr (R167). -/
def execCm (addr : Word) (s : State) : Outcome := .next (s.callIf .m addr)

/-- CPE addr (R168). -/
def execCpe (addr : Word) (s : State) : Outcome := .next (s.callIf .pe addr)

/-- CPO addr (R169). -/
def execCpo (addr : Word) (s : State) : Outcome := .next (s.callIf .po addr)

/-- RET (R170). It does not set INTE (60_exceptions.md R295). -/
def execRet (s : State) : Outcome := .next (s.returnTo.tick 10)

/-- RC (R171). -/
def execRc (s : State) : Outcome := .next (s.returnIf .c)

/-- RNC (R172). -/
def execRnc (s : State) : Outcome := .next (s.returnIf .nc)

/-- RZ (R173). -/
def execRz (s : State) : Outcome := .next (s.returnIf .z)

/-- RNZ (R174). -/
def execRnz (s : State) : Outcome := .next (s.returnIf .nz)

/-- RP (R175). -/
def execRp (s : State) : Outcome := .next (s.returnIf .p)

/-- RM (R176). -/
def execRm (s : State) : Outcome := .next (s.returnIf .m)

/-- RPE (R177). -/
def execRpe (s : State) : Outcome := .next (s.returnIf .pe)

/-- RPO (R178). -/
def execRpo (s : State) : Outcome := .next (s.returnIf .po)

/-- RST n (R186): a one-byte call of `8 * vvv`. -/
def execRst (vvv : BitVec 3) (s : State) : Outcome :=
  .next ((s.callTo (0#10 ++ vvv ++ 0#3)).tick 11)

end Sys2Proof.Machine
end

