-- ==== Sys2Proof/Machine/Control.lean ====
section
/-! DEFINITION. The meanings of the control instructions (spec 41_control.md). -/

namespace Sys2Proof.Machine

/-- HLT (R141): halted, then the halt acknowledge cycle; pc already points past the HLT. -/
def execHlt (s : State) : Outcome :=
  .next (({ s with halted := true }.writeCycle id .haltAck).tick 7)

/-- STC (R142). -/
def execStc (s : State) : Outcome := .next ((s.setCarry true).tick 4)

/-- CMC (R143). -/
def execCmc (s : State) : Outcome := .next ((s.setCarry (!s.flags.carry)).tick 4)

/-- Whether EI holds interrupts off for one instruction (`EI_DELAY`; with 0 the bit ei_inhibit is always 0, R41). -/
def eiHoldsOff : EiDelay → Bool
  | .one => true
  | .none => false

/-- EI (R144): INTE at once; with EI_DELAY = 1 no interrupt before one more instruction completes (R41). -/
def execEi (s : State) : Outcome :=
  .next ({ s with inte := true, eiInhibit := eiHoldsOff s.platform.eiDelay }.tick 4)

/-- DI (R145). -/
def execDi (s : State) : Outcome := .next ({ s with inte := false }.tick 4)

/-- NOP (R146). -/
def execNop (s : State) : Outcome := .next (s.tick 4)

end Sys2Proof.Machine
end

