-- ==== Sys2Proof/Machine/DataTransfer.lean ====
section
/-! DEFINITION. The meanings of the data transfer instructions (spec 40_data_transfer.md). No instruction of this family
writes a flag. pc already points past the instruction's bytes (R110). -/

namespace Sys2Proof.Machine

/-- MOV r1,r2 (R111). -/
def execMovRR (dst src : Reg) (s : State) : Outcome := .next ((s.setReg dst (s.getReg src)).tick 5)

/-- MOV M,r (R112). -/
def execMovMR (src : Reg) (s : State) : Outcome := .next ((s.writeMem s.hl (s.getReg src)).tick 7)

/-- MOV r,M (R113): the address is formed before the register is replaced. -/
def execMovRM (dst : Reg) (s : State) : Outcome :=
  let m := s.readMem s.hl
  .next ((m.2.setReg dst m.1).tick 7)

/-- MVI r,data (R114). -/
def execMviR (dst : Reg) (data : Byte) (s : State) : Outcome := .next ((s.setReg dst data).tick 7)

/-- MVI M,data (R115). -/
def execMviM (data : Byte) (s : State) : Outcome := .next ((s.writeMem s.hl data).tick 10)

/-- A from memory: LDA and LDAX share it. -/
def loadA (addr : Word) (s : State) : State :=
  let m := s.readMem addr
  m.2.setA m.1

/-- LDA addr (R116). -/
def execLda (addr : Word) (s : State) : Outcome := .next ((loadA addr s).tick 13)

/-- LDAX B (R117). -/
def execLdaxB (s : State) : Outcome := .next ((loadA s.bc s).tick 7)

/-- LDAX D (R118). -/
def execLdaxD (s : State) : Outcome := .next ((loadA s.de s).tick 7)

/-- LHLD addr (R119): L from the lower address, then H. -/
def execLhld (addr : Word) (s : State) : Outcome :=
  let lo := s.readMem addr
  let hi := lo.2.readMem (addr + 1)
  .next ((hi.2.setHl (mkWord hi.1 lo.1)).tick 16)

/-- LXI H,data16 (R120). -/
def execLxiH (data16 : Word) (s : State) : Outcome := .next ((s.setHl data16).tick 10)

/-- LXI D,data16 (R121). -/
def execLxiD (data16 : Word) (s : State) : Outcome := .next ((s.setDe data16).tick 10)

/-- LXI B,data16 (R122). -/
def execLxiB (data16 : Word) (s : State) : Outcome := .next ((s.setBc data16).tick 10)

/-- LXI SP,data16 (R123). -/
def execLxiSp (data16 : Word) (s : State) : Outcome := .next ((s.setSp data16).tick 10)

/-- SHLD addr (R124): L to the lower address first, then H. -/
def execShld (addr : Word) (s : State) : Outcome :=
  .next (((s.writeMem addr s.l).writeMem (addr + 1) s.h).tick 16)

/-- STA addr (R125). -/
def execSta (addr : Word) (s : State) : Outcome := .next ((s.writeMem addr s.a).tick 13)

/-- STAX B (R126). -/
def execStaxB (s : State) : Outcome := .next ((s.writeMem s.bc s.a).tick 7)

/-- STAX D (R127). -/
def execStaxD (s : State) : Outcome := .next ((s.writeMem s.de s.a).tick 7)

/-- SPHL (R128). -/
def execSphl (s : State) : Outcome := .next ((s.setSp s.hl).tick 5)

/-- XCHG (R129). -/
def execXchg (s : State) : Outcome := .next (((s.setHl s.de).setDe s.hl).tick 4)

/-- XTHL (R130): both reads come before both writes; H is written to SP+1 first, then L to SP. -/
def execXthl (s : State) : Outcome :=
  let lo := s.readStack s.sp
  let hi := lo.2.readStack (s.sp + 1)
  let written := (hi.2.writeStack (s.sp + 1) s.h).writeStack s.sp s.l
  .next ((written.setHl (mkWord hi.1 lo.1)).tick 18)

/-- IN port (R138): no flag is written (D27). -/
def execInPort (port : Byte) (s : State) : Outcome :=
  let r := s.readPort port
  .next ((r.2.setA r.1).tick 10)

/-- OUT port (R139). -/
def execOutPort (port : Byte) (s : State) : Outcome := .next ((s.writePort port s.a).tick 10)

end Sys2Proof.Machine
end

