-- ==== Sys2Proof/Machine/IncDec.lean ====
section
/-! DEFINITION. The meanings of the increment and decrement instructions (spec 46_increment_decrement.md). INR and DCR
never write CY; INX and DCX write no flag (R260). -/

namespace Sys2Proof.Machine

/-- INR r (R261). -/
def execInrR (reg : Reg) (s : State) : Outcome :=
  let r := incFlags s.flags (s.getReg reg)
  .next (((s.setReg reg r.1).setFlags r.2).tick 5)

/-- INR M (R262): a read cycle, then a write cycle at the same address. -/
def execInrM (s : State) : Outcome :=
  let m := s.readMem s.hl
  let r := incFlags s.flags m.1
  .next (((m.2.writeMem s.hl r.1).setFlags r.2).tick 10)

/-- INX B (R263). -/
def execInxB (s : State) : Outcome := .next ((s.setBc (s.bc + 1)).tick 5)

/-- INX D (R264). -/
def execInxD (s : State) : Outcome := .next ((s.setDe (s.de + 1)).tick 5)

/-- INX H (R265). -/
def execInxH (s : State) : Outcome := .next ((s.setHl (s.hl + 1)).tick 5)

/-- INX SP (R266). -/
def execInxSp (s : State) : Outcome := .next ((s.setSp (s.sp + 1)).tick 5)

/-- DCR r (R267). -/
def execDcrR (reg : Reg) (s : State) : Outcome :=
  let r := decFlags s.flags (s.getReg reg)
  .next (((s.setReg reg r.1).setFlags r.2).tick 5)

/-- DCR M (R268): a read cycle, then a write cycle at the same address. -/
def execDcrM (s : State) : Outcome :=
  let m := s.readMem s.hl
  let r := decFlags s.flags m.1
  .next (((m.2.writeMem s.hl r.1).setFlags r.2).tick 10)

/-- DCX B (R269). -/
def execDcxB (s : State) : Outcome := .next ((s.setBc (s.bc - 1)).tick 5)

/-- DCX D (R270). -/
def execDcxD (s : State) : Outcome := .next ((s.setDe (s.de - 1)).tick 5)

/-- DCX H (R271). -/
def execDcxH (s : State) : Outcome := .next ((s.setHl (s.hl - 1)).tick 5)

/-- DCX SP (R272). -/
def execDcxSp (s : State) : Outcome := .next ((s.setSp (s.sp - 1)).tick 5)

end Sys2Proof.Machine
end

