-- ==== Sys2Proof/Machine/Logical.lean ====
section
/-! DEFINITION. The meanings of the logical instructions (spec 45_logical.md). -/

namespace Sys2Proof.Machine

/-- ANA r (R232). -/
def execAnaR (src : Reg) (s : State) : Outcome := .next ((s.andA (s.getReg src)).tick 4)

/-- ANA M (R233). -/
def execAnaM (s : State) : Outcome :=
  let m := s.readMem s.hl
  .next ((m.2.andA m.1).tick 7)

/-- ANI data (R234). -/
def execAni (data : Byte) (s : State) : Outcome := .next ((s.andA data).tick 7)

/-- XRA r (R235). -/
def execXraR (src : Reg) (s : State) : Outcome := .next ((s.xorA (s.getReg src)).tick 4)

/-- XRA M (R236). -/
def execXraM (s : State) : Outcome :=
  let m := s.readMem s.hl
  .next ((m.2.xorA m.1).tick 7)

/-- XRI data (R237). -/
def execXri (data : Byte) (s : State) : Outcome := .next ((s.xorA data).tick 7)

/-- ORA r (R238). -/
def execOraR (src : Reg) (s : State) : Outcome := .next ((s.orA (s.getReg src)).tick 4)

/-- ORA M (R239). -/
def execOraM (s : State) : Outcome :=
  let m := s.readMem s.hl
  .next ((m.2.orA m.1).tick 7)

/-- ORI data (R240). -/
def execOri (data : Byte) (s : State) : Outcome := .next ((s.orA data).tick 7)

/-- CMP r (R241). -/
def execCmpR (src : Reg) (s : State) : Outcome := .next ((s.cmpA (s.getReg src)).tick 4)

/-- CMP M (R242). -/
def execCmpM (s : State) : Outcome :=
  let m := s.readMem s.hl
  .next ((m.2.cmpA m.1).tick 7)

/-- CPI data (R243). -/
def execCpi (data : Byte) (s : State) : Outcome := .next ((s.cmpA data).tick 7)

/-- CMA (R244): no flag is written. -/
def execCma (s : State) : Outcome := .next ((s.setA (~~~s.a)).tick 4)

/-- RLC (R245): bit 7 goes to bit 0 and to CY. -/
def execRlc (s : State) : Outcome :=
  .next ((s.setRotate (s.a.extractLsb' 0 7 ++ BitVec.ofBool (s.a.getLsbD 7)) (s.a.getLsbD 7)).tick 4)

/-- RRC (R246): bit 0 goes to bit 7 and to CY. -/
def execRrc (s : State) : Outcome :=
  .next ((s.setRotate (BitVec.ofBool (s.a.getLsbD 0) ++ s.a.extractLsb' 1 7) (s.a.getLsbD 0)).tick 4)

/-- RAL (R247): the 9 bits of CY and A to the left. -/
def execRal (s : State) : Outcome :=
  .next ((s.setRotate (s.a.extractLsb' 0 7 ++ BitVec.ofBool s.flags.carry) (s.a.getLsbD 7)).tick 4)

/-- RAR (R248): the 9 bits of A and CY to the right. -/
def execRar (s : State) : Outcome :=
  .next ((s.setRotate (BitVec.ofBool s.flags.carry ++ s.a.extractLsb' 1 7) (s.a.getLsbD 0)).tick 4)

end Sys2Proof.Machine
end

