-- ==== Sys2Proof/Machine/Stack.lean ====
section
/-! DEFINITION. The meanings of PUSH and POP (spec 44_stack.md). Only POP PSW writes flags. -/

namespace Sys2Proof.Machine

/-- PUSH B (R221). -/
def execPushB (s : State) : Outcome := .next ((s.push16 s.bc).tick 11)

/-- PUSH D (R222). -/
def execPushD (s : State) : Outcome := .next ((s.push16 s.de).tick 11)

/-- PUSH H (R223). -/
def execPushH (s : State) : Outcome := .next ((s.push16 s.hl).tick 11)

/-- PUSH PSW (R224). -/
def execPushPsw (s : State) : Outcome := .next ((s.push16 s.psw).tick 11)

/-- POP B (R225). -/
def execPopB (s : State) : Outcome :=
  let r := s.pop16
  .next ((r.2.setBc r.1).tick 10)

/-- POP D (R226). -/
def execPopD (s : State) : Outcome :=
  let r := s.pop16
  .next ((r.2.setDe r.1).tick 10)

/-- POP H (R227). -/
def execPopH (s : State) : Outcome :=
  let r := s.pop16
  .next ((r.2.setHl r.1).tick 10)

/-- POP PSW (R228). -/
def execPopPsw (s : State) : Outcome :=
  let r := s.pop16
  .next ((r.2.setPsw r.1).tick 10)

end Sys2Proof.Machine
end

