-- ==== Sys2Proof/Machine/Dispatch.lean ====
section
/-! DEFINITION. One arm per constructor of Instr, in the order of spec/opcode_table.json. -/

namespace Sys2Proof.Machine

def exec (i : Instr) (s : State) : Host.Outcome State Fault Refusal :=
  match i with
  | .movRR dst src => Sys2Proof.Machine.execMovRR dst src s
  | .movMR src => Sys2Proof.Machine.execMovMR src s
  | .movRM dst => Sys2Proof.Machine.execMovRM dst s
  | .mviR dst data => Sys2Proof.Machine.execMviR dst data s
  | .mviM data => Sys2Proof.Machine.execMviM data s
  | .lda addr => Sys2Proof.Machine.execLda addr s
  | .ldaxB => Sys2Proof.Machine.execLdaxB s
  | .ldaxD => Sys2Proof.Machine.execLdaxD s
  | .lhld addr => Sys2Proof.Machine.execLhld addr s
  | .lxiH data16 => Sys2Proof.Machine.execLxiH data16 s
  | .lxiD data16 => Sys2Proof.Machine.execLxiD data16 s
  | .lxiB data16 => Sys2Proof.Machine.execLxiB data16 s
  | .lxiSp data16 => Sys2Proof.Machine.execLxiSp data16 s
  | .shld addr => Sys2Proof.Machine.execShld addr s
  | .sta addr => Sys2Proof.Machine.execSta addr s
  | .staxB => Sys2Proof.Machine.execStaxB s
  | .staxD => Sys2Proof.Machine.execStaxD s
  | .sphl => Sys2Proof.Machine.execSphl s
  | .xchg => Sys2Proof.Machine.execXchg s
  | .xthl => Sys2Proof.Machine.execXthl s
  | .inPort port => Sys2Proof.Machine.execInPort port s
  | .outPort port => Sys2Proof.Machine.execOutPort port s
  | .hlt => Sys2Proof.Machine.execHlt s
  | .stc => Sys2Proof.Machine.execStc s
  | .cmc => Sys2Proof.Machine.execCmc s
  | .ei => Sys2Proof.Machine.execEi s
  | .di => Sys2Proof.Machine.execDi s
  | .nop => Sys2Proof.Machine.execNop s
  | .jmp addr => Sys2Proof.Machine.execJmp addr s
  | .jc addr => Sys2Proof.Machine.execJc addr s
  | .jnc addr => Sys2Proof.Machine.execJnc addr s
  | .jz addr => Sys2Proof.Machine.execJz addr s
  | .jnz addr => Sys2Proof.Machine.execJnz addr s
  | .jp addr => Sys2Proof.Machine.execJp addr s
  | .jm addr => Sys2Proof.Machine.execJm addr s
  | .jpe addr => Sys2Proof.Machine.execJpe addr s
  | .jpo addr => Sys2Proof.Machine.execJpo addr s
  | .pchl => Sys2Proof.Machine.execPchl s
  | .call addr => Sys2Proof.Machine.execCall addr s
  | .cc addr => Sys2Proof.Machine.execCc addr s
  | .cnc addr => Sys2Proof.Machine.execCnc addr s
  | .cz addr => Sys2Proof.Machine.execCz addr s
  | .cnz addr => Sys2Proof.Machine.execCnz addr s
  | .cp addr => Sys2Proof.Machine.execCp addr s
  | .cm addr => Sys2Proof.Machine.execCm addr s
  | .cpe addr => Sys2Proof.Machine.execCpe addr s
  | .cpo addr => Sys2Proof.Machine.execCpo addr s
  | .ret => Sys2Proof.Machine.execRet s
  | .rc => Sys2Proof.Machine.execRc s
  | .rnc => Sys2Proof.Machine.execRnc s
  | .rz => Sys2Proof.Machine.execRz s
  | .rnz => Sys2Proof.Machine.execRnz s
  | .rp => Sys2Proof.Machine.execRp s
  | .rm => Sys2Proof.Machine.execRm s
  | .rpe => Sys2Proof.Machine.execRpe s
  | .rpo => Sys2Proof.Machine.execRpo s
  | .rst vvv => Sys2Proof.Machine.execRst vvv s
  | .addR src => Sys2Proof.Machine.execAddR src s
  | .adcR src => Sys2Proof.Machine.execAdcR src s
  | .addM => Sys2Proof.Machine.execAddM s
  | .adcM => Sys2Proof.Machine.execAdcM s
  | .adi data => Sys2Proof.Machine.execAdi data s
  | .aci data => Sys2Proof.Machine.execAci data s
  | .dadB => Sys2Proof.Machine.execDadB s
  | .dadD => Sys2Proof.Machine.execDadD s
  | .dadH => Sys2Proof.Machine.execDadH s
  | .dadSp => Sys2Proof.Machine.execDadSp s
  | .subR src => Sys2Proof.Machine.execSubR src s
  | .sbbR src => Sys2Proof.Machine.execSbbR src s
  | .subM => Sys2Proof.Machine.execSubM s
  | .sbbM => Sys2Proof.Machine.execSbbM s
  | .sui data => Sys2Proof.Machine.execSui data s
  | .sbi data => Sys2Proof.Machine.execSbi data s
  | .daa => Sys2Proof.Machine.execDaa s
  | .pushB => Sys2Proof.Machine.execPushB s
  | .pushD => Sys2Proof.Machine.execPushD s
  | .pushH => Sys2Proof.Machine.execPushH s
  | .pushPsw => Sys2Proof.Machine.execPushPsw s
  | .popB => Sys2Proof.Machine.execPopB s
  | .popD => Sys2Proof.Machine.execPopD s
  | .popH => Sys2Proof.Machine.execPopH s
  | .popPsw => Sys2Proof.Machine.execPopPsw s
  | .anaR src => Sys2Proof.Machine.execAnaR src s
  | .anaM => Sys2Proof.Machine.execAnaM s
  | .ani data => Sys2Proof.Machine.execAni data s
  | .xraR src => Sys2Proof.Machine.execXraR src s
  | .xraM => Sys2Proof.Machine.execXraM s
  | .xri data => Sys2Proof.Machine.execXri data s
  | .oraR src => Sys2Proof.Machine.execOraR src s
  | .oraM => Sys2Proof.Machine.execOraM s
  | .ori data => Sys2Proof.Machine.execOri data s
  | .cmpR src => Sys2Proof.Machine.execCmpR src s
  | .cmpM => Sys2Proof.Machine.execCmpM s
  | .cpi data => Sys2Proof.Machine.execCpi data s
  | .cma => Sys2Proof.Machine.execCma s
  | .rlc => Sys2Proof.Machine.execRlc s
  | .rrc => Sys2Proof.Machine.execRrc s
  | .ral => Sys2Proof.Machine.execRal s
  | .rar => Sys2Proof.Machine.execRar s
  | .inrR reg => Sys2Proof.Machine.execInrR reg s
  | .inrM => Sys2Proof.Machine.execInrM s
  | .inxB => Sys2Proof.Machine.execInxB s
  | .inxD => Sys2Proof.Machine.execInxD s
  | .inxH => Sys2Proof.Machine.execInxH s
  | .inxSp => Sys2Proof.Machine.execInxSp s
  | .dcrR reg => Sys2Proof.Machine.execDcrR reg s
  | .dcrM => Sys2Proof.Machine.execDcrM s
  | .dcxB => Sys2Proof.Machine.execDcxB s
  | .dcxD => Sys2Proof.Machine.execDcxD s
  | .dcxH => Sys2Proof.Machine.execDcxH s
  | .dcxSp => Sys2Proof.Machine.execDcxSp s

end Sys2Proof.Machine
end

