-- ==== Sys2Proof/Machine/Cycle.lean ====
section
/-! DEFINITION. The body of one step (spec 60_exceptions.md R310): the pins, the fetch of an instruction from memory or
from the interrupting device, its execution, and how a program's bytes are placed where the next fetch is. -/

namespace Sys2Proof.Machine

/-- An instruction fetched from memory at pc is executed (R310): opcode, then its operand bytes (30_encoding.md R81), then
its meaning. DEDUCED, safe (log 16). -/
def runFetched (s : State) : Outcome :=
  let f := s.fetchOpcode
  match f.2.abandoned with
  | some _ => settle f.2
  | none =>
    let s1 := { f.2 with ir := f.1 }
    match decodeOpcodeUnder s.platform.unassigned f.1 with
    | .one i => finish f.1 (exec i s1)
    | .two withData => let b := s1.fetch8; finish f.1 (exec (withData b.1) b.2)
    | .three withWord => let w := s1.fetch16; finish f.1 (exec (withWord w.1) w.2)
    | .unassigned => .refused (.unassignedOpcode f.1)

/-- The instruction a device supplied is executed: pc is not advanced by its bytes (60_exceptions.md R291). -/
def runSupplied (op : Byte) (bytes : List Byte) (s : State) : Outcome :=
  match decodeOpcodeUnder s.platform.unassigned op with
  | .one i => finish op (exec i s)
  | .two withData => let b := s.suppliedByte bytes; finish op (exec (withData b.1) b.2)
  | .three withWord =>
    let lo := s.suppliedByte bytes
    let hi := lo.2.suppliedByte bytes.tail
    finish op (exec (withWord (mkWord hi.1 lo.1)) hi.2)
  | .unassigned => .refused (.unassignedOpcode op)

/-- `AcceptInterrupt()` (60_exceptions.md R288), the device supplying `bytes`; E3H is refused (R294).
DEDUCED, safe (log 12). -/
def acceptInterrupt (bytes : List Byte) (s : State) : Outcome :=
  let k := s.acknowledge bytes
  match k.2.abandoned with
  | some _ => settle k.2
  | none => if k.1 = 0xE3 then .refused .xthlAsInterruptInstruction else runSupplied k.1 bytes.tail k.2

/-- What the environment does at this instruction boundary, and the state with that entry taken. -/
def State.takePins (s : State) : Pins × State :=
  match s.pins with
  | [] => (Pins.quiet, s)
  | p :: rest => (p, { s with pins := rest })

/-- A halted processor does nothing (60_exceptions.md R296); another fetches and executes.
DEDUCED, safe (log 19). -/
def runProgram (s : State) : Outcome := if s.halted then .next s else runFetched s

/-- The instruction boundary without Reset or Hold: an accepted interrupt comes before the next fetch (R298, R310). -/
def runBoundary (int : Option (List Byte)) (s : State) : Outcome :=
  match int with
  | some bytes => if s.acceptsInterrupt then acceptInterrupt bytes s else runProgram s
  | none => runProgram s

/-- `Step()` (60_exceptions.md R310): Reset, then Hold, then interrupt, then the program. -/
def stepBody (s : State) : Outcome :=
  let t := s.takePins
  if t.1.reset then .next t.2.resetLine
  else
    match t.1.hold with
    | some g => .next (t.2.enterHold g)
    | none => runBoundary t.1.int t.2.leaveHold

/-- The first region added for an address that holds no memory yet, so that a byte placed there can be fetched. -/
def placeRegion (s : State) (a : Word) : List Region :=
  match s.kindAt a with
  | .ram | .rom => []
  | .absent | .device => [{ base := a.toNat, size := 1, kind := .ram }]

/-- Bytes placed in memory from outside the machine at `a`, `a + 1`, … DESIGN CHOICE, safe (log 18). -/
def State.placeBytes (s : State) (a : Word) : List Byte → State
  | [] => s
  | v :: rest =>
    State.placeBytes
      { s with
        mem := s.mem.write a v
        platform := { s.platform with regions := placeRegion s a ++ s.platform.regions } }
      (a + 1) rest

/-- The bytes of an instruction placed at pc, the processor not halted and no line acting on the coming step, so that the
next step fetches and runs exactly them (log 18). -/
def State.placeInstr (s : State) (bytes : List Byte) : State :=
  { s.placeBytes s.pc bytes with
    halted := false
    pins := if s.pins.isEmpty then [] else Pins.quiet :: s.pins
    slots := []
    abandoned := none }

end Sys2Proof.Machine
end

