-- ==== Sys2Proof/Machine/Step.lean ====
section
/-! DEFINITION. One step of the machine, and the placing of an instruction where the next step fetches. -/

namespace Sys2Proof.Machine

/-- One step: 60_exceptions.md R310. -/
def step (s : State) : Host.Outcome State Fault Refusal := stepBody s

/-- The instruction whose bits are `w` (numbered as spec/opcode_table.json does, zeros above `nbits`) stored at pc. -/
def State.withFetchWord (s : State) (nbits w : Nat) : State := s.placeInstr (tableBytes nbits w)

end Sys2Proof.Machine
end

