-- ==== Sys2Proof/Machine/Bus.lean ====
section
/-! DEFINITION. What the outside sees of a bus cycle: the status byte (spec 20_memory.md R61 to R63), the address, the
data, and the levels of SYNC, DBIN, WR, WAIT and HLDA (R60; 60_exceptions.md R280, R308). An observer: no meaning depends
on it. INTE is the field `inte` of State. -/

namespace Sys2Proof.Machine

/-- The status byte from its eight bits, bit 7 first: MEMR INP M1 OUT HLTA STK WO INTA (20_memory.md R61). -/
def statusByte (memr inp m1 out hlta stk wo inta : Bool) : Byte :=
  BitVec.ofBool memr ++ BitVec.ofBool inp ++ BitVec.ofBool m1 ++ BitVec.ofBool out ++ BitVec.ofBool hlta ++
    BitVec.ofBool stk ++ BitVec.ofBool wo ++ BitVec.ofBool inta

/-- A memory read operation that the processor announces as one (R62, bit 7), the halt acknowledge included (R63). -/
def BusCycle.memr : BusCycle → Bool
  | .fetch .. | .memRead .. | .stackRead .. | .haltAck => true
  | .memWrite .. | .stackWrite .. | .input .. | .output .. | .intAck .. | .dma .. => false

/-- An input instruction is being executed (R62, bit 6). -/
def BusCycle.inp : BusCycle → Bool
  | .input .. => true
  | .fetch .. | .memRead .. | .stackRead .. | .haltAck | .memWrite .. | .stackWrite .. | .output .. | .intAck ..
  | .dma .. => false

/-- The first instruction byte is being fetched (R62, bit 5). -/
def BusCycle.m1 : BusCycle → Bool
  | .fetch .. | .intAck .. => true
  | .memRead .. | .stackRead .. | .haltAck | .memWrite .. | .stackWrite .. | .input .. | .output .. | .dma .. => false

/-- An output instruction is being executed (R62, bit 4). -/
def BusCycle.out : BusCycle → Bool
  | .output .. => true
  | .fetch .. | .memRead .. | .stackRead .. | .haltAck | .memWrite .. | .stackWrite .. | .input .. | .intAck ..
  | .dma .. => false

/-- Halt acknowledge (R62, bit 3). -/
def BusCycle.hlta : BusCycle → Bool
  | .haltAck => true
  | .intAck _ _ fromHalt => fromHalt
  | .fetch .. | .memRead .. | .stackRead .. | .memWrite .. | .stackWrite .. | .input .. | .output .. | .dma .. => false

/-- The stack pointer is on the address bus (R62, bit 2). -/
def BusCycle.stk : BusCycle → Bool
  | .stackRead .. | .stackWrite .. => true
  | .fetch .. | .memRead .. | .haltAck | .memWrite .. | .input .. | .output .. | .intAck .. | .dma .. => false

/-- High for a read or input, low for a write or output (R62, bit 1). -/
def BusCycle.wo : BusCycle → Bool
  | .memWrite .. | .stackWrite .. | .output .. | .dma .. => false
  | .fetch .. | .memRead .. | .stackRead .. | .haltAck | .input .. | .intAck .. => true

/-- Interrupt acknowledge (R62, bit 0). -/
def BusCycle.inta : BusCycle → Bool
  | .intAck .. => true
  | .fetch .. | .memRead .. | .stackRead .. | .haltAck | .memWrite .. | .stackWrite .. | .input .. | .output ..
  | .dma .. => false

/-- The status byte the processor drives at the start of a cycle (20_memory.md R63); none in a cycle of the holder. -/
def BusCycle.status (c : BusCycle) : Option Byte :=
  match c with
  | .dma .. => none
  | _ => some (statusByte c.memr c.inp c.m1 c.out c.hlta c.stk c.wo c.inta)

/-- The value on the address bus; in an input or output cycle of the processor the port number stands on both halves
(20_memory.md R52). The source gives none for the halt acknowledge. What the holder puts there when it accesses a port is
open (R71 is silent): the model shows the port number on both halves then too. DESIGN CHOICE, unsafe (log 24). -/
def BusCycle.address : BusCycle → Option Word
  | .fetch a _ | .memRead a _ | .memWrite a _ | .stackRead a _ | .stackWrite a _ | .intAck a _ _ => some a
  | .input p _ | .output p _ => some (mkWord p p)
  | .haltAck => none
  | .dma (.read a) _ | .dma (.write a _) _ => some a
  | .dma (.input p) _ | .dma (.output p _) _ => some (mkWord p p)

/-- The byte on the data bus. -/
def BusCycle.data : BusCycle → Option Byte
  | .fetch _ v | .memRead _ v | .memWrite _ v | .stackRead _ v | .stackWrite _ v | .intAck _ v _ => some v
  | .input _ v | .output _ v => some v
  | .haltAck => none
  | .dma _ v => some v

/-- SYNC "indicates the start of each processor cycle and the presence of processor status information on the data bus"
(20_memory.md R60): once in every cycle of the processor, none of the holder's. The byte then on the bus is `status`. -/
def BusCycle.sync : BusCycle → Bool
  | .fetch .. | .memRead .. | .memWrite .. | .stackRead .. | .stackWrite .. | .input .. | .output .. | .intAck ..
  | .haltAck => true
  | .dma .. => false

/-- DBIN (20_memory.md R60): active while "the processor is reading" (00_scope.md R19), an interrupt instruction included
(60_exceptions.md R289). The spec gives no level in the halt acknowledge, a cycle of no data: none. In a cycle of the
holder the processor reads nothing. DEDUCED, safe (log 23). -/
def BusCycle.dbin : BusCycle → Option Bool
  | .fetch .. | .memRead .. | .stackRead .. | .input .. | .intAck .. => some true
  | .memWrite .. | .stackWrite .. | .output .. | .dma .. => some false
  | .haltAck => none

/-- The level of the pin WR, "Write Not" (20_memory.md R60): low while the processor's byte on the data bus is valid in a
write or output, high in every other cycle. In a cycle of the holder the processor writes nothing. DEDUCED, safe
(log 23). -/
def BusCycle.wr : BusCycle → Bool
  | .memWrite .. | .stackWrite .. | .output .. => false
  | .fetch .. | .memRead .. | .stackRead .. | .input .. | .intAck .. | .haltAck | .dma .. => true

/-- HLDA: active while another device has the buses (60_exceptions.md R304, R308). -/
def BusCycle.hlda : BusCycle → Bool
  | .dma .. => true
  | .fetch .. | .memRead .. | .memWrite .. | .stackRead .. | .stackWrite .. | .input .. | .output .. | .intAck ..
  | .haltAck => false

/-- WAIT (20_memory.md R60; 60_exceptions.md R308): whether it was active inside the bus cycle number `k`. The halt is no
Wait state (00_scope.md R19). -/
def State.waitIn (s : State) (k : Nat) : Bool := s.waitStates.any fun w => w.cycle == k

/-- The levels of the pins in one bus cycle (20_memory.md R60; 60_exceptions.md R280). -/
structure BusSignals where
  address : Option Word
  data : Option Byte
  /-- the byte on the data bus at SYNC time -/
  status : Option Byte
  sync : Bool
  dbin : Option Bool
  /-- low (false) while written data is valid -/
  wr : Bool
  hlda : Bool
  wait : Bool
  deriving DecidableEq, Repr

/-- The levels of the pins in each bus cycle so far, in order. -/
def State.signals (s : State) : List BusSignals :=
  s.bus.zipIdx.map fun p =>
    { address := p.1.address, data := p.1.data, status := p.1.status, sync := p.1.sync, dbin := p.1.dbin, wr := p.1.wr
      hlda := p.1.hlda, wait := s.waitIn p.2 }

/-- The bytes the program has sent to output ports, in order (40_data_transfer.md R139). -/
def State.outputs (s : State) : List (Byte × Byte) :=
  s.bus.filterMap fun c =>
    match c with
    | .output p v => some (p, v)
    | _ => none

end Sys2Proof.Machine
end

