-- ==== Sys2Proof/WellFormed.lean ====
section
/-! DEFINITION. Static checks: on the fields of an instruction, on an instruction as an interrupt instruction, and on the
platform's address map. -/

namespace Sys2Proof

/-- The constraint the rows with a `ddd` or `sss` field carry in spec/opcode_table.json: the field is not 110, which
selects the separate memory row (30_encoding.md R82, R91). -/
def regFieldOk (code : BitVec 3) : Bool := code != 6

/-- An instruction is well formed when every register field it encodes satisfies its row's constraint. The type `Reg`
has no register with code 110, so every term of `Instr` passes (`Laws/PerInstr.lean`); every value of every other field
is legal (R93). -/
def Instr.wellFormed : Instr → Bool
  | .movRR dst src => regFieldOk dst.code && regFieldOk src.code
  | .movMR src | .addR src | .adcR src | .subR src | .sbbR src
  | .anaR src | .xraR src | .oraR src | .cmpR src => regFieldOk src.code
  | .movRM dst | .mviR dst _ => regFieldOk dst.code
  | .inrR reg | .dcrR reg => regFieldOk reg.code
  | .mviM _ | .lda _ | .ldaxB | .ldaxD | .lhld _ | .lxiH _ | .lxiD _ | .lxiB _ | .lxiSp _ | .shld _ | .sta _ | .staxB
  | .staxD | .sphl | .xchg | .xthl | .inPort _ | .outPort _ | .hlt | .stc | .cmc | .ei | .di | .nop | .jmp _ | .jc _
  | .jnc _ | .jz _ | .jnz _ | .jp _ | .jm _ | .jpe _ | .jpo _ | .pchl | .call _ | .cc _ | .cnc _ | .cz _ | .cnz _
  | .cp _ | .cm _ | .cpe _ | .cpo _ | .ret | .rc | .rnc | .rz | .rnz | .rp | .rm | .rpe | .rpo | .rst _ | .addM | .adcM
  | .adi _ | .aci _ | .dadB | .dadD | .dadH | .dadSp | .subM | .sbbM | .sui _ | .sbi _ | .daa | .pushB | .pushD | .pushH
  | .pushPsw | .popB | .popD | .popH | .popPsw | .anaM | .ani _ | .xraM | .xri _ | .oraM | .ori _ | .cmpM | .cpi _
  | .cma | .rlc | .rrc | .ral | .rar | .inrM | .inxB | .inxD | .inxH | .inxSp | .dcrM | .dcxB | .dcxD | .dcxH
  | .dcxSp => true

/-- "Any opcode may be used except XTHL" as the instruction an interrupting device supplies (60_exceptions.md R294). -/
def Instr.wellFormedAsInterrupt (i : Instr) : Bool := i.wellFormed && i != .xthl

/-- A region is not empty and lies inside the 65,536 addresses (20_memory.md R50). -/
def Region.wellFormed (r : Region) : Bool := decide (0 < r.size) && decide (r.base + r.size ≤ 65536)

/-- Two regions share no address. -/
def Region.apart (r q : Region) : Bool := decide (r.base + r.size ≤ q.base) || decide (q.base + q.size ≤ r.base)

/-- An address map whose regions are well formed and pairwise apart. (The model is total on any list: the first region
that holds an address gives its kind.) -/
def regionsWellFormed : List Region → Bool
  | [] => true
  | r :: rest => r.wellFormed && rest.all r.apart && regionsWellFormed rest

/-- A platform whose address map is well formed. -/
def Platform.wellFormed (p : Platform) : Bool := regionsWellFormed p.regions

end Sys2Proof
end

