-- ==== Sys2Proof/Safety.lean ====
section
/-! DEFINITION. The terms the statements use: the processor's visible state, undisturbed execution, what a store leaves
in memory, the invariant, the fetch of an instruction from memory, and which instructions share one shape. -/

namespace Sys2Proof.Machine

/-- The processor's own state (10_state.md R20), but for hlda: the registers by name, and the rest. -/
@[ext] structure Cpu where
  regs : Reg → Byte
  sp : Word
  pc : Word
  flags : Flags
  inte : Bool
  halted : Bool
  eiInhibit : Bool
  ir : Byte

/-- The processor's own state in a state of the machine. -/
def State.cpu (s : State) : Cpu :=
  { regs := s.getReg, sp := s.sp, pc := s.pc, flags := s.flags, inte := s.inte, halted := s.halted
    eiInhibit := s.eiInhibit, ir := s.ir }

/-- What an instruction without a bus cycle cannot touch: memory, the bus, the environment. -/
@[ext] structure Outside where
  mem : Memory
  bus : List BusCycle
  waitStates : List WaitState
  answers : List Byte
  draws : Nat
  slots : List BusSlot
  abandoned : Option Abandon
  hlda : Bool

/-- The outside of the processor in a state of the machine. -/
def State.outside (s : State) : Outside :=
  { mem := s.mem, bus := s.bus, waitStates := s.waitStates, answers := s.answers, draws := s.draws, slots := s.slots
    abandoned := s.abandoned, hlda := s.hlda }

/-- `t` is `s` with the processor `k`, the outside `o` and `n` more clock cycles. The five clauses cover every field of
State: nothing else may differ. -/
abbrev State.Became (s t : State) (k : Cpu) (o : Outside) (n : Nat) : Prop :=
  t.cpu = k ∧ t.outside = o ∧ t.platform = s.platform ∧ t.pins = s.pins ∧ t.clocks = s.clocks + n

/-- No Hold, Wait or Reset acts inside the coming bus cycles: "With no Hold device … every instruction is atomic in
effect" (20_memory.md R57). -/
abbrev State.Undisturbed (s : State) : Prop := s.slots = [] ∧ s.abandoned = none

/-- Memory, read/write or read-only, lies behind an address (20_memory.md R58). -/
abbrev State.HoldsMemory (s : State) (a : Word) : Prop := s.kindAt a = .ram ∨ s.kindAt a = .rom

/-- The byte at `x` after `v` is written to `a`, where it was `old` before: only read/write memory takes the byte
(20_memory.md R58). -/
def State.storedAt (s : State) (a : Word) (v : Byte) (x : Word) (old : Byte) : Byte :=
  if x = a ∧ s.kindAt a = .ram then v else old

/-- The clocks of Wait states, taken together (20_memory.md R72). -/
def waitClocks (ws : List WaitState) : Nat := (ws.map fun w => w.clocks.getD 0).sum

/-- The invariant every step keeps: memory in its canonical form, no instruction left cut short, and `ei_inhibit` set
only after EI: IR holds its code FBH, INTE is set, the processor is not halted, EI_DELAY is 1 (R41, R42, R144, R296). -/
abbrev State.Inv (s : State) : Prop :=
  s.mem.wf ∧ s.abandoned = none ∧
    (s.eiInhibit = true → s.ir = 0xFB ∧ s.inte = true ∧ s.halted = false ∧ s.platform.eiDelay = .one)

/-- The flags of an 8-bit result given as a number (10_state.md R26). -/
def resultFlags (r : Nat) (carry ac : Bool) : Flags :=
  { sign := decide (128 ≤ r), zero := decide (r = 0), ac := ac, parity := parity8 (BitVec.ofNat 8 r), carry := carry }

/-! ### Fetching (60_exceptions.md R310; 20_memory.md R66) -/

/-- The first `n` (1, 2 or 3) bytes memory holds at `a`. -/
def State.codeAt (s : State) (a : Word) (n : Nat) : List Byte :=
  (List.range n).map fun k => s.peek (a + BitVec.ofNat 16 k)

/-- The bus cycles that fetch an instruction of `n` bytes at `a`: M1, then ordinary reads. -/
def State.fetchCycles (s : State) (a : Word) (n : Nat) : List BusCycle :=
  .fetch a (s.peek a) ::
    ((List.range (n - 1)).map fun k => .memRead (a + BitVec.ofNat 16 (k + 1)) (s.peek (a + BitVec.ofNat 16 (k + 1))))

/-- The state in which the meaning of a fetched instruction of `n` bytes runs: the boundary's entry of `pins` taken, HLDA
low, pc past the instruction, IR its first byte. -/
def State.fetched (s : State) (n : Nat) : State :=
  { s.takePins.2 with
    hlda := false, pc := s.pc + BitVec.ofNat 16 n, ir := s.peek s.pc, bus := s.bus ++ s.fetchCycles s.pc n }

/-- The bus cycles of an accepted interrupt whose device supplies `bytes`: the acknowledge, then ordinary reads, pc on the
address bus throughout (60_exceptions.md R288, R290). -/
def State.supplyCycles (s : State) (bytes : List Byte) : List BusCycle :=
  match bytes with
  | [] => []
  | op :: rest => .intAck s.pc op s.halted :: rest.map fun v => .memRead s.pc v

/-- The state in which the meaning of a supplied instruction runs: further interrupts disabled, the halt ended, HLDA low,
IR its first byte, pc not moved (60_exceptions.md R288, R291). -/
def State.acknowledged (s : State) (op : Byte) (bytes : List Byte) : State :=
  { s.takePins.2 with
    hlda := false, inte := false, halted := false, ir := op, bus := s.bus ++ s.supplyCycles bytes }

/-- The environment's lines at the coming step: neither Reset nor Hold, the interrupt line as given (60_exceptions.md
R310). -/
abbrev State.LinesAre (s : State) (int : Option (List Byte)) : Prop :=
  s.takePins.1 = { reset := false, hold := none, int := int }

/-- Instructions executed one after another, each as `exec` has it. -/
def execAll : List Instr → State → Outcome
  | [], s => .next s
  | i :: rest, s =>
    match exec i s with
    | .next t => execAll rest t
    | .fault r => .fault r
    | .refused r => .refused r

/-! ### Instructions of one shape -/

/-- The loads of one register from one address, with their clock cycles. -/
inductive LoadForm (s : State) : Instr → Reg → Word → Nat → Prop
  | movRM (dst : Reg) : LoadForm s (.movRM dst) dst s.hl 7
  | lda (addr : Word) : LoadForm s (.lda addr) .a addr 13
  | ldaxB : LoadForm s .ldaxB .a s.bc 7
  | ldaxD : LoadForm s .ldaxD .a s.de 7

/-- The stores of one byte to one address, with their clock cycles. -/
inductive StoreForm (s : State) : Instr → Word → Byte → Nat → Prop
  | movMR (src : Reg) : StoreForm s (.movMR src) s.hl (s.getReg src) 7
  | mviM (data : Byte) : StoreForm s (.mviM data) s.hl data 10
  | sta (addr : Word) : StoreForm s (.sta addr) addr s.a 13
  | staxB : StoreForm s .staxB s.bc s.a 7
  | staxD : StoreForm s .staxD s.de s.a 7

/-- The 8-bit additions of a register or immediate operand: the addend, the carry in, the clock cycles. -/
inductive AddForm (s : State) : Instr → Byte → Bool → Nat → Prop
  | addR (src : Reg) : AddForm s (.addR src) (s.getReg src) false 4
  | adcR (src : Reg) : AddForm s (.adcR src) (s.getReg src) s.flags.carry 4
  | adi (data : Byte) : AddForm s (.adi data) data false 7
  | aci (data : Byte) : AddForm s (.aci data) data s.flags.carry 7

/-- The 8-bit subtractions of a register or immediate operand: the subtrahend, the borrow in, the clock cycles. -/
inductive SubForm (s : State) : Instr → Byte → Bool → Nat → Prop
  | subR (src : Reg) : SubForm s (.subR src) (s.getReg src) false 4
  | sbbR (src : Reg) : SubForm s (.sbbR src) (s.getReg src) s.flags.carry 4
  | sui (data : Byte) : SubForm s (.sui data) data false 7
  | sbi (data : Byte) : SubForm s (.sbi data) data s.flags.carry 7

/-- The comparisons with a register or immediate operand. -/
inductive CmpForm (s : State) : Instr → Byte → Nat → Prop
  | cmpR (src : Reg) : CmpForm s (.cmpR src) (s.getReg src) 4
  | cpi (data : Byte) : CmpForm s (.cpi data) data 7

/-- The conjunctions with a register or immediate operand. -/
inductive AndForm (s : State) : Instr → Byte → Nat → Prop
  | anaR (src : Reg) : AndForm s (.anaR src) (s.getReg src) 4
  | ani (data : Byte) : AndForm s (.ani data) data 7

/-- The disjunctions, exclusive and inclusive, with a register or immediate operand: their result. -/
inductive OrForm (s : State) : Instr → Byte → Nat → Prop
  | xraR (src : Reg) : OrForm s (.xraR src) (s.a ^^^ s.getReg src) 4
  | xri (data : Byte) : OrForm s (.xri data) (s.a ^^^ data) 7
  | oraR (src : Reg) : OrForm s (.oraR src) (s.a ||| s.getReg src) 4
  | ori (data : Byte) : OrForm s (.ori data) (s.a ||| data) 7

/-- The memory form of an accumulator instruction beside its immediate form: the operand is the byte at HL
(30_encoding.md R85). -/
inductive MemoryOperandForm (v : Byte) : Instr → Instr → Prop
  | add : MemoryOperandForm v .addM (.adi v)
  | adc : MemoryOperandForm v .adcM (.aci v)
  | sub : MemoryOperandForm v .subM (.sui v)
  | sbb : MemoryOperandForm v .sbbM (.sbi v)
  | ana : MemoryOperandForm v .anaM (.ani v)
  | xra : MemoryOperandForm v .xraM (.xri v)
  | ora : MemoryOperandForm v .oraM (.ori v)
  | cmp : MemoryOperandForm v .cmpM (.cpi v)

/-- The 16-bit additions into HL: the addend. -/
inductive DadForm (s : State) : Instr → Word → Prop
  | dadB : DadForm s .dadB s.bc
  | dadD : DadForm s .dadD s.de
  | dadH : DadForm s .dadH s.hl
  | dadSp : DadForm s .dadSp s.sp

/-- The jumps to an address in the instruction, and whether they are taken (00_scope.md R17). -/
inductive JumpForm (f : Flags) (addr : Word) : Instr → Bool → Prop
  | jmp : JumpForm f addr (.jmp addr) true
  | jc : JumpForm f addr (.jc addr) f.carry
  | jnc : JumpForm f addr (.jnc addr) (!f.carry)
  | jz : JumpForm f addr (.jz addr) f.zero
  | jnz : JumpForm f addr (.jnz addr) (!f.zero)
  | jp : JumpForm f addr (.jp addr) (!f.sign)
  | jm : JumpForm f addr (.jm addr) f.sign
  | jpe : JumpForm f addr (.jpe addr) f.parity
  | jpo : JumpForm f addr (.jpo addr) (!f.parity)

/-- The calls: target, whether they are taken (00_scope.md R17), clock cycles taken and not. -/
inductive CallForm (f : Flags) : Instr → Word → Bool → Nat → Nat → Prop
  | call (addr : Word) : CallForm f (.call addr) addr true 17 17
  | cc (addr : Word) : CallForm f (.cc addr) addr f.carry 17 11
  | cnc (addr : Word) : CallForm f (.cnc addr) addr (!f.carry) 17 11
  | cz (addr : Word) : CallForm f (.cz addr) addr f.zero 17 11
  | cnz (addr : Word) : CallForm f (.cnz addr) addr (!f.zero) 17 11
  | cp (addr : Word) : CallForm f (.cp addr) addr (!f.sign) 17 11
  | cm (addr : Word) : CallForm f (.cm addr) addr f.sign 17 11
  | cpe (addr : Word) : CallForm f (.cpe addr) addr f.parity 17 11
  | cpo (addr : Word) : CallForm f (.cpo addr) addr (!f.parity) 17 11
  | rst (vvv : BitVec 3) : CallForm f (.rst vvv) (BitVec.ofNat 16 (8 * vvv.toNat)) true 11 11

/-- The returns: whether they are taken (00_scope.md R17), clock cycles taken and not. -/
inductive ReturnForm (f : Flags) : Instr → Bool → Nat → Nat → Prop
  | ret : ReturnForm f .ret true 10 10
  | rc : ReturnForm f .rc f.carry 11 5
  | rnc : ReturnForm f .rnc (!f.carry) 11 5
  | rz : ReturnForm f .rz f.zero 11 5
  | rnz : ReturnForm f .rnz (!f.zero) 11 5
  | rp : ReturnForm f .rp (!f.sign) 11 5
  | rm : ReturnForm f .rm f.sign 11 5
  | rpe : ReturnForm f .rpe f.parity 11 5
  | rpo : ReturnForm f .rpo (!f.parity) 11 5

/-- The pushes: the bytes for SP-1 and SP-2 (44_stack.md R220, R224). -/
inductive PushForm (s : State) : Instr → Byte → Byte → Prop
  | pushB : PushForm s .pushB s.b s.c
  | pushD : PushForm s .pushD s.d s.e
  | pushH : PushForm s .pushH s.h s.l
  | pushPsw : PushForm s .pushPsw s.a s.flags.toByte

/-- The pops of two registers: the one from SP+1, the one from SP (44_stack.md R220). -/
inductive PopForm : Instr → Reg → Reg → Prop
  | popB : PopForm .popB .b .c
  | popD : PopForm .popD .d .e
  | popH : PopForm .popH .h .l

/-- The increments and decrements of a 16-bit pair: its registers, and what is added modulo 65536. -/
inductive PairStepForm : Instr → Reg → Reg → Nat → Prop
  | inxB : PairStepForm .inxB .b .c 1
  | inxD : PairStepForm .inxD .d .e 1
  | inxH : PairStepForm .inxH .h .l 1
  | dcxB : PairStepForm .dcxB .b .c 65535
  | dcxD : PairStepForm .dcxD .d .e 65535
  | dcxH : PairStepForm .dcxH .h .l 65535

/-- What an instruction may do to the flags (the table of 10_state.md R28). -/
inductive FlagEffect
  /-- all five may change -/
  | all
  /-- CY only -/
  | carryOnly
  /-- all but CY -/
  | allButCarry
  /-- none -/
  | none
  deriving DecidableEq, Repr

/-- The table of 10_state.md R28: which instruction writes which flag. -/
def flagEffect : Instr → FlagEffect
  | .addR _ | .adcR _ | .addM | .adcM | .adi _ | .aci _ | .subR _ | .sbbR _ | .subM | .sbbM | .sui _ | .sbi _ | .cmpR _
  | .cmpM | .cpi _ | .anaR _ | .anaM | .ani _ | .xraR _ | .xraM | .xri _ | .oraR _ | .oraM | .ori _ | .daa
  | .popPsw => .all
  | .inrR _ | .inrM | .dcrR _ | .dcrM => .allButCarry
  | .dadB | .dadD | .dadH | .dadSp | .rlc | .rrc | .ral | .rar | .stc | .cmc => .carryOnly
  | .movRR .. | .movMR _ | .movRM _ | .mviR .. | .mviM _ | .lda _ | .ldaxB | .ldaxD | .lhld _ | .lxiH _ | .lxiD _
  | .lxiB _ | .lxiSp _ | .shld _ | .sta _ | .staxB | .staxD | .sphl | .xchg | .xthl | .inPort _ | .outPort _ | .hlt
  | .ei | .di | .nop | .jmp _ | .jc _ | .jnc _ | .jz _ | .jnz _ | .jp _ | .jm _ | .jpe _ | .jpo _ | .pchl | .call _
  | .cc _ | .cnc _ | .cz _ | .cnz _ | .cp _ | .cm _ | .cpe _ | .cpo _ | .ret | .rc | .rnc | .rz | .rnz | .rp | .rm
  | .rpe | .rpo | .rst _ | .pushB | .pushD | .pushH | .pushPsw | .popB | .popD | .popH | .cma | .inxB | .inxD | .inxH
  | .inxSp | .dcxB | .dcxD | .dcxH | .dcxSp => .none

/-- The flags after are the flags before but for what the effect allows. -/
def FlagEffect.allows (k : FlagEffect) (before after : Flags) : Prop :=
  match k with
  | .all => True
  | .carryOnly => after = { before with carry := after.carry }
  | .allButCarry => after.carry = before.carry
  | .none => after = before

/-- The registers an instruction may write (the column "written by" of 10_state.md R20, instruction by instruction). -/
def registersWritten : Instr → List Reg
  | .movRR dst _ | .movRM dst | .mviR dst _ | .inrR dst | .dcrR dst => [dst]
  | .lda _ | .ldaxB | .ldaxD | .inPort _ | .addR _ | .adcR _ | .addM | .adcM | .adi _ | .aci _ | .subR _ | .sbbR _
  | .subM | .sbbM | .sui _ | .sbi _ | .daa | .popPsw | .anaR _ | .anaM | .ani _ | .xraR _ | .xraM | .xri _ | .oraR _
  | .oraM | .ori _ | .cma | .rlc | .rrc | .ral | .rar => [.a]
  | .lxiB _ | .popB | .inxB | .dcxB => [.b, .c]
  | .lxiD _ | .popD | .inxD | .dcxD => [.d, .e]
  | .lhld _ | .lxiH _ | .xthl | .dadB | .dadD | .dadH | .dadSp | .popH | .inxH | .dcxH => [.h, .l]
  | .xchg => [.d, .e, .h, .l]
  | .movMR _ | .mviM _ | .lxiSp _ | .shld _ | .sta _ | .staxB | .staxD | .sphl | .outPort _ | .hlt | .stc | .cmc | .ei
  | .di | .nop | .jmp _ | .jc _ | .jnc _ | .jz _ | .jnz _ | .jp _ | .jm _ | .jpe _ | .jpo _ | .pchl | .call _ | .cc _
  | .cnc _ | .cz _ | .cnz _ | .cp _ | .cm _ | .cpe _ | .cpo _ | .ret | .rc | .rnc | .rz | .rnz | .rp | .rm | .rpe
  | .rpo | .rst _ | .pushB | .pushD | .pushH | .pushPsw | .cmpR _ | .cmpM | .cpi _ | .inrM | .dcrM | .inxSp
  | .dcxSp => []

/-- The instructions that may write SP (10_state.md R20, R32). -/
def writesSp : Instr → Bool
  | .lxiSp _ | .sphl | .inxSp | .dcxSp | .pushB | .pushD | .pushH | .pushPsw | .popB | .popD | .popH | .popPsw | .call _
  | .cc _ | .cnc _ | .cz _ | .cnz _ | .cp _ | .cm _ | .cpe _ | .cpo _ | .rst _ | .ret | .rc | .rnc | .rz | .rnz | .rp
  | .rm | .rpe | .rpo => true
  | .movRR .. | .movMR _ | .movRM _ | .mviR .. | .mviM _ | .lda _ | .ldaxB | .ldaxD | .lhld _ | .lxiH _ | .lxiD _
  | .lxiB _ | .shld _ | .sta _ | .staxB | .staxD | .xchg | .xthl | .inPort _ | .outPort _ | .hlt | .stc | .cmc | .ei
  | .di | .nop | .jmp _ | .jc _ | .jnc _ | .jz _ | .jnz _ | .jp _ | .jm _ | .jpe _ | .jpo _ | .pchl | .addR _ | .adcR _
  | .addM | .adcM | .adi _ | .aci _ | .dadB | .dadD | .dadH | .dadSp | .subR _ | .sbbR _ | .subM | .sbbM | .sui _
  | .sbi _ | .daa | .anaR _ | .anaM | .ani _ | .xraR _ | .xraM | .xri _ | .oraR _ | .oraM | .ori _ | .cmpR _ | .cmpM
  | .cpi _ | .cma | .rlc | .rrc | .ral | .rar | .inrR _ | .inrM | .inxB | .inxD | .inxH | .dcrR _ | .dcrM | .dcxB
  | .dcxD | .dcxH => false

/-- The instructions whose meaning may write pc: jumps, calls, returns, RST, PCHL (10_state.md R31). -/
def writesPc : Instr → Bool
  | .jmp _ | .jc _ | .jnc _ | .jz _ | .jnz _ | .jp _ | .jm _ | .jpe _ | .jpo _ | .pchl | .call _ | .cc _ | .cnc _
  | .cz _ | .cnz _ | .cp _ | .cm _ | .cpe _ | .cpo _ | .rst _ | .ret | .rc | .rnc | .rz | .rnz | .rp | .rm | .rpe
  | .rpo => true
  | .movRR .. | .movMR _ | .movRM _ | .mviR .. | .mviM _ | .lda _ | .ldaxB | .ldaxD | .lhld _ | .lxiH _ | .lxiD _
  | .lxiB _ | .lxiSp _ | .shld _ | .sta _ | .staxB | .staxD | .sphl | .xchg | .xthl | .inPort _ | .outPort _ | .hlt
  | .stc | .cmc | .ei | .di | .nop | .addR _ | .adcR _ | .addM | .adcM | .adi _ | .aci _ | .dadB | .dadD | .dadH
  | .dadSp | .subR _ | .sbbR _ | .subM | .sbbM | .sui _ | .sbi _ | .daa | .pushB | .pushD | .pushH | .pushPsw | .popB
  | .popD | .popH | .popPsw | .anaR _ | .anaM | .ani _ | .xraR _ | .xraM | .xri _ | .oraR _ | .oraM | .ori _ | .cmpR _
  | .cmpM | .cpi _ | .cma | .rlc | .rrc | .ral | .rar | .inrR _ | .inrM | .inxB | .inxD | .inxH | .inxSp | .dcrR _
  | .dcrM | .dcxB | .dcxD | .dcxH | .dcxSp => false

end Sys2Proof.Machine
end

