-- ==== Sys2Proof/Certificates/Slice0/Obligations.lean ====
section
/-! DEFINITION. The statements for the provers. Each docstring names the rules of spec/ it formalises; where the rule
rests on a decision of the spec's own (`D<n>` of 92_eei_decisions.md) or on a choice of this model (log <n>), the
docstring or the heading above it says which. -/

open Sys2Proof Sys2Proof.Machine

/-! ### Encoding (30_encoding.md) -/

/-- Decoding the bytes of an instruction, whatever follows them, gives the instruction back and leaves what follows: no
operand bit of an encoding is dropped (R81 to R86; D1, D9, D24). Every term of `Instr` is well formed (`Laws/PerInstr.lean`), so no
premise is needed. -/
def Obligations.DecodeOfEncode : Prop :=
  ∀ (i : Instr) (rest : List Byte), decode (encode i ++ rest) = .ok (i, rest)

/-- What the decoder accepts is exactly an encoding: one byte string has one meaning and no instruction a second spelling
(R80, R91; D1, D9, D24). -/
def Obligations.EncodeOfDecode : Prop :=
  ∀ (bytes : List Byte) (i : Instr) (rest : List Byte), decode bytes = .ok (i, rest) → encode i ++ rest = bytes

/-- R87: for each of the 244 assigned opcodes the first byte alone tells the length, by the printed function. -/
def Obligations.LengthFromFirstByte : Prop :=
  ∀ (op b2 b3 : Byte) (rest : List Byte), op ∉ unassignedOpcodes →
    ∃ i, decode (op :: b2 :: b3 :: rest) =
      .ok (i, (b2 :: b3 :: rest).drop
        ((if op.extractLsb' 6 2 = 0b01 ∨ op.extractLsb' 6 2 = 0b10 then 1
          else if op.extractLsb' 6 2 = 0b00 then
            if op.extractLsb' 0 3 = 0b110 then 2
            else if op.extractLsb' 0 4 = 0b0001 then 3
            else if op = 0x22 ∨ op = 0x2A ∨ op = 0x32 ∨ op = 0x3A then 3
            else 1
          else
            if op.extractLsb' 0 3 = 0b110 then 2
            else if op = 0xD3 ∨ op = 0xDB then 2
            else if op.extractLsb' 0 3 = 0b010 ∨ op.extractLsb' 0 3 = 0b100 then 3
            else if op = 0xC3 ∨ op = 0xCD then 3
            else 1) - 1))

/-- R82: the codes of the register fields `ddd` and `sss`; 110 makes the memory form, and both fields 110 in a MOV is
HLT. -/
def Obligations.RegisterFieldCodes : Prop :=
  (Reg.a.code = 0b111 ∧ Reg.b.code = 0b000 ∧ Reg.c.code = 0b001 ∧ Reg.d.code = 0b010 ∧ Reg.e.code = 0b011 ∧
    Reg.h.code = 0b100 ∧ Reg.l.code = 0b101) ∧
  (∀ dst src : Reg, ∀ data : Byte, ∀ rest : List Byte,
    decode (opcodeByte 0b01 dst.code src.code :: rest) = .ok (.movRR dst src, rest) ∧
    decode (opcodeByte 0b01 0b110 src.code :: rest) = .ok (.movMR src, rest) ∧
    decode (opcodeByte 0b01 dst.code 0b110 :: rest) = .ok (.movRM dst, rest) ∧
    decode (opcodeByte 0b00 dst.code 0b110 :: data :: rest) = .ok (.mviR dst data, rest) ∧
    decode (0b00110110 :: data :: rest) = .ok (.mviM data, rest) ∧
    decode (opcodeByte 0b00 dst.code 0b100 :: rest) = .ok (.inrR dst, rest) ∧
    decode (0b00110100 :: rest) = .ok (.inrM, rest) ∧
    decode (opcodeByte 0b00 dst.code 0b101 :: rest) = .ok (.dcrR dst, rest) ∧
    decode (0b00110101 :: rest) = .ok (.dcrM, rest) ∧
    (∀ op ∈ [((0b000 : BitVec 3), Instr.addR src, Instr.addM), (0b001, .adcR src, .adcM), (0b010, .subR src, .subM),
        (0b011, .sbbR src, .sbbM), (0b100, .anaR src, .anaM), (0b101, .xraR src, .xraM), (0b110, .oraR src, .oraM),
        (0b111, .cmpR src, .cmpM)],
      decode (opcodeByte 0b10 op.1 src.code :: rest) = .ok (op.2.1, rest) ∧
      decode (opcodeByte 0b10 op.1 0b110 :: rest) = .ok (op.2.2, rest)) ∧
    decode (0b01110110 :: rest) = .ok (.hlt, rest))

/-- R88: the field `ccc` of the conditional jumps, calls and returns. That the low byte of the address comes first is the
spec's own decision D1 (R86, general knowledge; log 13). -/
def Obligations.ConditionFieldCodes : Prop :=
  ∀ (lo hi : Byte) (rest : List Byte),
    (decode (opcodeByte 0b11 0b000 0b010 :: lo :: hi :: rest) = .ok (.jnz (mkWord hi lo), rest) ∧
      decode (opcodeByte 0b11 0b001 0b010 :: lo :: hi :: rest) = .ok (.jz (mkWord hi lo), rest) ∧
      decode (opcodeByte 0b11 0b010 0b010 :: lo :: hi :: rest) = .ok (.jnc (mkWord hi lo), rest) ∧
      decode (opcodeByte 0b11 0b011 0b010 :: lo :: hi :: rest) = .ok (.jc (mkWord hi lo), rest) ∧
      decode (opcodeByte 0b11 0b100 0b010 :: lo :: hi :: rest) = .ok (.jpo (mkWord hi lo), rest) ∧
      decode (opcodeByte 0b11 0b101 0b010 :: lo :: hi :: rest) = .ok (.jpe (mkWord hi lo), rest) ∧
      decode (opcodeByte 0b11 0b110 0b010 :: lo :: hi :: rest) = .ok (.jp (mkWord hi lo), rest) ∧
      decode (opcodeByte 0b11 0b111 0b010 :: lo :: hi :: rest) = .ok (.jm (mkWord hi lo), rest)) ∧
    (decode (opcodeByte 0b11 0b000 0b100 :: lo :: hi :: rest) = .ok (.cnz (mkWord hi lo), rest) ∧
      decode (opcodeByte 0b11 0b001 0b100 :: lo :: hi :: rest) = .ok (.cz (mkWord hi lo), rest) ∧
      decode (opcodeByte 0b11 0b010 0b100 :: lo :: hi :: rest) = .ok (.cnc (mkWord hi lo), rest) ∧
      decode (opcodeByte 0b11 0b011 0b100 :: lo :: hi :: rest) = .ok (.cc (mkWord hi lo), rest) ∧
      decode (opcodeByte 0b11 0b100 0b100 :: lo :: hi :: rest) = .ok (.cpo (mkWord hi lo), rest) ∧
      decode (opcodeByte 0b11 0b101 0b100 :: lo :: hi :: rest) = .ok (.cpe (mkWord hi lo), rest) ∧
      decode (opcodeByte 0b11 0b110 0b100 :: lo :: hi :: rest) = .ok (.cp (mkWord hi lo), rest) ∧
      decode (opcodeByte 0b11 0b111 0b100 :: lo :: hi :: rest) = .ok (.cm (mkWord hi lo), rest)) ∧
    (decode (opcodeByte 0b11 0b000 0b000 :: rest) = .ok (.rnz, rest) ∧
      decode (opcodeByte 0b11 0b001 0b000 :: rest) = .ok (.rz, rest) ∧
      decode (opcodeByte 0b11 0b010 0b000 :: rest) = .ok (.rnc, rest) ∧
      decode (opcodeByte 0b11 0b011 0b000 :: rest) = .ok (.rc, rest) ∧
      decode (opcodeByte 0b11 0b100 0b000 :: rest) = .ok (.rpo, rest) ∧
      decode (opcodeByte 0b11 0b101 0b000 :: rest) = .ok (.rpe, rest) ∧
      decode (opcodeByte 0b11 0b110 0b000 :: rest) = .ok (.rp, rest) ∧
      decode (opcodeByte 0b11 0b111 0b000 :: rest) = .ok (.rm, rest))

/-- R92, R94 (D10): with two more bytes at hand the decoder refuses exactly the twelve unassigned opcodes, each by its name. -/
def Obligations.UnassignedBytesRefused : Prop :=
  ∀ (op b2 b3 : Byte) (rest : List Byte) (err : DecodeError),
    decode (op :: b2 :: b3 :: rest) = .error err ↔
      err = .unassignedOpcode op ∧
        (op = 0x08 ∨ op = 0x10 ∨ op = 0x18 ∨ op = 0x20 ∨ op = 0x28 ∨ op = 0x30 ∨ op = 0x38 ∨ op = 0xCB ∨ op = 0xD9 ∨
          op = 0xDD ∨ op = 0xED ∨ op = 0xFD)

/-- The examples of the instruction rules: MOV A,B = 78H, LDA 2050H = 3AH 50H 20H, LHLD 025BH = 2AH 5BH 02H,
MVI M,7 = 36H 07H, IN 10H = DBH 10H, and HLT = 76H of R82 (byte order: D1). -/
def Obligations.PrintedWordsDecode : Prop :=
  decode [0x78] = .ok (.movRR .a .b, []) ∧ decode [0x3A, 0x50, 0x20] = .ok (.lda 0x2050, []) ∧
    decode [0x2A, 0x5B, 0x02] = .ok (.lhld 0x025B, []) ∧ decode [0x36, 0x07] = .ok (.mviM 7, []) ∧
    decode [0xDB, 0x10] = .ok (.inPort 0x10, []) ∧ decode [0x76] = .ok (.hlt, [])

/-! ### The step (60_exceptions.md R310; the order of the cycles is D21's) -/

/-- A step runs the decoded instruction. Neither Reset nor Hold acts, no interrupt is accepted, the processor is not
halted, nothing intervenes between the bus cycles and the instruction's bytes lie in memory: the step is `exec` of the
instruction that these bytes decode to, in the state with pc past them, and then clears `ei_inhibit` unless the
instruction was EI. -/
def Obligations.StepRunsDecodedInstruction : Prop :=
  ∀ (s : State) (int : Option (List Byte)) (i : Instr) (rest : List Byte),
    s.LinesAre int → (int = none ∨ s.acceptsInterrupt = false) → s.halted = false → s.Undisturbed →
    decode (s.codeAt s.pc 3) = .ok (i, rest) →
    (∀ k < (encode i).length, s.HoldsMemory (s.pc + BitVec.ofNat 16 k)) →
    ∃ t, exec i (s.fetched (encode i).length) = .next t ∧
      step s = .next (if i = .ei then t else { t with eiInhibit := false })

/-- R92 under the policy `refuse` (D10): an unassigned opcode at pc is refused by name. -/
def Obligations.UnassignedOpcodeStops : Prop :=
  ∀ (s : State) (int : Option (List Byte)),
    s.LinesAre int → (int = none ∨ s.acceptsInterrupt = false) → s.halted = false → s.Undisturbed →
    s.HoldsMemory s.pc → s.platform.unassigned = .refuse → s.peek s.pc ∈ unassignedOpcodes →
    step s = .refused (.unassignedOpcode (s.peek s.pc))

/-- 93_implementation_defined.md U1 under the policy `alias_8080A`: an unassigned opcode at pc does what the documented
opcode it duplicates does, with its own operand bytes. PRESUMED by the spec itself of 8080A silicon (log 11). -/
def Obligations.UnassignedOpcodeAlias : Prop :=
  ∀ (s : State) (int : Option (List Byte)) (i : Instr) (rest : List Byte),
    s.LinesAre int → (int = none ∨ s.acceptsInterrupt = false) → s.halted = false → s.Undisturbed →
    s.platform.unassigned = .alias8080A → s.peek s.pc ∈ unassignedOpcodes →
    decode
      ((if s.peek s.pc = 0xCB then 0xC3 else if s.peek s.pc = 0xD9 then 0xC9
        else if s.peek s.pc = 0xDD ∨ s.peek s.pc = 0xED ∨ s.peek s.pc = 0xFD then 0xCD else 0x00) ::
          s.codeAt (s.pc + 1) 2) = .ok (i, rest) →
    (∀ k < (encode i).length, s.HoldsMemory (s.pc + BitVec.ofNat 16 k)) →
    ∃ t, exec i (s.fetched (encode i).length) = .next t ∧ step s = .next { t with eiInhibit := false }

/-- R288, R289, R290, R291 (D14): an accepted interrupt clears INTE, ends a halt, loads IR and executes the supplied
instruction as `exec` has it, pc not moved by its bytes; XTHL is refused instead (`XthlSuppliedRefused`). -/
def Obligations.AcceptedInterruptRunsSupplied : Prop :=
  ∀ (s : State) (i : Instr) (op : Byte) (operands : List Byte),
    encode i = op :: operands → i ≠ .xthl → s.LinesAre (some (op :: operands)) → s.acceptsInterrupt = true →
    s.Undisturbed →
    ∃ t, exec i (s.acknowledged op (op :: operands)) = .next t ∧
      step s = .next (if i = .ei then t else { t with eiInhibit := false })

/-- R287, R285 (D11, D22): where INTE is 0 or `ei_inhibit` is 1 the interrupt line has no effect at all: the step is the step with no
line active (the request is not remembered). -/
def Obligations.IgnoredInterruptHasNoEffect : Prop :=
  ∀ (s : State) (bytes : List Byte),
    s.LinesAre (some bytes) → (s.inte = false ∨ s.eiInhibit = true) →
    step s = step { s with pins := Pins.quiet :: s.pins.tail }

/-- R293, R295 (D3, D9, D14): an accepted RST pushes the unchanged pc, starts its routine at `8 * vvv` with INTE = 0, and the RET of
the routine brings back pc and SP; every register and flag is as before the interrupt, INTE stays 0. -/
def Obligations.InterruptThenReturn : Prop :=
  ∀ (s : State) (vvv : BitVec 3) (op : Byte) (rest : List Byte),
    encode (.rst vvv) = op :: rest → s.LinesAre (some (op :: rest)) → s.acceptsInterrupt = true → s.Undisturbed →
    s.mem.wf → s.kindAt (s.sp - 1) = .ram → s.kindAt (s.sp - 2) = .ram →
    ∃ t u, step s = .next t ∧
      t.cpu = { s.cpu with
        pc := BitVec.ofNat 16 (8 * vvv.toNat), sp := s.sp - 2, inte := false, halted := false, eiInhibit := false
        ir := op } ∧
      t.peek (s.sp - 1) = hiByte s.pc ∧ t.peek (s.sp - 2) = loByte s.pc ∧
      (∀ x, x ≠ s.sp - 1 → x ≠ s.sp - 2 → t.peek x = s.peek x) ∧
      exec .ret t = .next u ∧
      u.cpu = { s.cpu with inte := false, halted := false, eiInhibit := false, ir := op }

/-- R294, R326 (D15): a device that supplies E3H, the code of XTHL, is refused by name. -/
def Obligations.XthlSuppliedRefused : Prop :=
  ∀ (s : State) (rest : List Byte),
    s.LinesAre (some (0xE3 :: rest)) → s.acceptsInterrupt = true → s.Undisturbed →
    step s = .refused .xthlAsInterruptInstruction

/-- R296 (D13): while halted, with no interrupt accepted, no Reset and no Hold, a step does nothing: no fetch, no state
changed but the boundary's entry of `pins` and HLDA low. -/
def Obligations.HaltedWaits : Prop :=
  ∀ (s : State) (int : Option (List Byte)),
    s.halted = true → s.LinesAre int → (int = none ∨ s.acceptsInterrupt = false) →
    step s = .next { s with pins := s.pins.tail, hlda := false }

/-- R320, R44, R298 (D13, D16): RESET at a boundary, whatever else is active: pc, IR, INTE, hlda, halted and `ei_inhibit`
are cleared, memory and the parameters are not touched. Of the thirteen other pieces of state nothing is said. -/
def Obligations.ResetStep : Prop :=
  ∀ s : State, s.takePins.1.reset = true →
    ∃ t, step s = .next t ∧ t.pc = 0 ∧ t.ir = 0 ∧ t.inte = false ∧ t.hlda = false ∧ t.halted = false ∧
      t.eiInhibit = false ∧ t.abandoned = none ∧ (∀ x, t.peek x = s.peek x) ∧ t.platform = s.platform ∧ t.bus = s.bus ∧
      t.waitStates = s.waitStates

/-- R322 (D16, D21): RESET between the two writes of PUSH B: the push is abandoned with only its first byte, B, written. -/
def Obligations.ResetInsidePush : Prop :=
  ∀ (s : State) (n : Nat) (slot : BusSlot) (rest : List BusSlot),
    s.abandoned = none → s.slots = { reset := false, hold := none, waits := some n } :: slot :: rest →
    slot.reset = true → s.mem.wf → s.kindAt (s.sp - 1) = .ram →
    ∃ t, exec .pushB s = .next t ∧ t.abandoned = some .reset ∧ t.peek (s.sp - 1) = s.b ∧
      (∀ x, x ≠ s.sp - 1 → t.peek x = s.peek x) ∧ ∃ u, settle t = .next u ∧ u.pc = 0 ∧ u.mem = t.mem

/-- R44 (D11, D13): what Reset leaves, in `State.reset`: the values the spec states. -/
def Obligations.ResetStateValues : Prop :=
  State.reset.pc = 0 ∧ State.reset.ir = 0 ∧ State.reset.inte = false ∧ State.reset.hlda = false ∧
    State.reset.halted = false ∧ State.reset.eiInhibit = false

/-- R297: while the processor is in the Hold state it accepts no interrupt, and a request that ends with the Hold is
lost (R285, D22); a request still present at the next boundary is accepted there if INTE = 1 and `ei_inhibit` = 0 (D11).
That `int` is the level of the line at one step is the model's choice, log 4, and that a Hold at a boundary takes a whole
step its deduction, log 17. -/
def Obligations.HoldPostponesInterrupts : Prop :=
  ∀ (s : State) (g : Hold) (int next : Option (List Byte)) (rest : List Pins),
    s.pins = { reset := false, hold := some g, int := int } :: { reset := false, hold := none, int := next } :: rest →
    ∃ t, step s = .next t ∧ t.hlda = true ∧ t.cpu = s.cpu ∧ t.acceptsInterrupt = s.acceptsInterrupt ∧
      t.LinesAre next ∧
      step t =
        match next with
        | none => runProgram { t with pins := rest, hlda := false }
        | some bytes =>
          if s.inte = true ∧ s.eiInhibit = false then acceptInterrupt bytes { t with pins := rest, hlda := false }
          else runProgram { t with pins := rest, hlda := false }

/-- R304, R71 (D17): the Hold state changes no register, flag, pc, SP, INTE or halted, and memory only where the holding
device writes. -/
def Obligations.HoldLeavesProcessor : Prop :=
  ∀ (s : State) (g : Hold), s.takePins.1.reset = false → s.takePins.1.hold = some g →
    ∃ t, step s = .next t ∧ t.cpu = s.cpu ∧ t.hlda = true ∧ t.platform = s.platform ∧ t.pins = s.pins.tail ∧
      t.slots = s.slots ∧ t.abandoned = s.abandoned ∧
      (∀ x, (∀ v, DmaAccess.write x v ∉ g.accesses) → t.peek x = s.peek x)

/-- R57, R68 (D17): INR M is no atomic read-modify-write: a Hold device's write between its two cycles is overwritten. -/
def Obligations.HoldSplitsIncrement : Prop :=
  ∀ (s : State) (n m clocks : Nat) (v : Byte),
    s.abandoned = none → s.kindAt s.hl = .ram → s.mem.wf →
    s.slots = [{ reset := false, hold := none, waits := some n },
      { reset := false, hold := some { clocks := clocks, accesses := [.write s.hl v] }, waits := some m }] →
    ∃ t, exec .inrM s = .next t ∧ t.peek s.hl = s.peek s.hl + 1 ∧
      t.bus = s.bus ++ [.memRead s.hl (s.peek s.hl), .dma (.write s.hl v) v, .memWrite s.hl (s.peek s.hl + 1)]

/-- R72, R308: Wait states lengthen an instruction by their clocks, show on the output WAIT (recorded in `waitStates`, the
model's observer, log 15), and change nothing else. -/
def Obligations.WaitsOnlyDelay : Prop :=
  ∀ (s : State) (i : Instr), s.abandoned = none →
    (∀ slot ∈ s.slots, slot.reset = false ∧ slot.hold = none ∧ ∃ n, slot.waits = some n) →
    ∃ t u shown used, exec i s = .next t ∧ exec i { s with slots := [] } = .next u ∧ u.waitStates = s.waitStates ∧
      s.slots = used ++ t.slots ∧ waitClocks shown = (used.map fun slot => slot.waits.getD 0).sum ∧
      t = { u with
        slots := t.slots, waitStates := s.waitStates ++ shown, clocks := u.clocks + waitClocks shown }

/-- R72, U8: READY withheld for ever in the opcode fetch: the step is stuck. -/
def Obligations.ReadyWithheldIsStuck : Prop :=
  ∀ (s : State) (slot : BusSlot) (rest : List BusSlot),
    s.LinesAre none → s.halted = false → s.abandoned = none → s.slots = slot :: rest → slot.reset = false →
    slot.waits = none → step s = .fault .readyWithheld

/-- R61, R62, R63 (a table the spec gives from general knowledge): the status byte the processor drives in each kind of
machine cycle, and the address bus of an I/O cycle (R52, D8). R60, R280: SYNC in each, DBIN in each that reads, WR low in
each that writes; the holder's cycles have none of the three (log 23). -/
def Obligations.StatusBytes : Prop :=
  ∀ (a : Word) (v p : Byte),
    (BusCycle.fetch a v).status = some 0xA2 ∧ (BusCycle.memRead a v).status = some 0x82 ∧
    (BusCycle.memWrite a v).status = some 0x00 ∧ (BusCycle.stackRead a v).status = some 0x86 ∧
    (BusCycle.stackWrite a v).status = some 0x04 ∧ (BusCycle.input p v).status = some 0x42 ∧
    (BusCycle.output p v).status = some 0x10 ∧ (BusCycle.intAck a v false).status = some 0x23 ∧
    BusCycle.haltAck.status = some 0x8A ∧ (BusCycle.intAck a v true).status = some 0x2B ∧
    (BusCycle.input p v).address = some (mkWord p p) ∧ (BusCycle.output p v).address = some (mkWord p p) ∧
    (∀ c ∈ [BusCycle.fetch a v, .memRead a v, .stackRead a v, .input p v, .intAck a v false, .intAck a v true],
      c.sync = true ∧ c.dbin = some true ∧ c.wr = true) ∧
    (∀ c ∈ [BusCycle.memWrite a v, .stackWrite a v, .output p v],
      c.sync = true ∧ c.dbin = some false ∧ c.wr = false) ∧
    BusCycle.haltAck.sync = true ∧ BusCycle.haltAck.wr = true ∧
    ∀ x : DmaAccess, (BusCycle.dma x v).sync = false ∧ (BusCycle.dma x v).dbin = some false ∧
      (BusCycle.dma x v).wr = true ∧ (BusCycle.dma x v).hlda = true

/-! ### What holds of every instruction and every step -/

/-- Every step keeps the invariant: memory in its canonical form, no instruction left cut short, and `ei_inhibit` only
after EI: with IR = FBH, INTE set, out of a halt, under EI_DELAY = 1 (R41, R42, R144, R296; D11, D13). From every state,
not only those a run reaches. -/
def Obligations.StepKeepsInv : Prop :=
  ∀ s t : State, s.Inv → step s = .next t → t.Inv

/-- The machine after reset has the invariant. -/
def Obligations.ResetHasInv : Prop := State.reset.Inv

/-- R58, R64 (D20): what no step can change: the parameters, and every byte outside read/write memory, whatever the program,
the Hold device, an interrupt or Reset does. -/
def Obligations.ReadOnlyMemoryNeverChanges : Prop :=
  ∀ s t : State, step s = .next t →
    t.platform = s.platform ∧ ∀ x, s.kindAt x ≠ .ram → t.peek x = s.peek x

/-- R300, R301 (D19): no instruction faults or is refused, in any state: `exec` answers a next state. -/
def Obligations.ExecAlwaysCompletes : Prop :=
  ∀ (i : Instr) (s : State), ∃ t, exec i s = .next t ∧ t.platform = s.platform ∧ t.pins = s.pins

/-- R18, R300, U8 (D10, D15): why a step can stop at all: READY withheld for ever, an unassigned opcode under the policy `refuse`, or
XTHL supplied by an interrupting device with interrupts enabled. -/
def Obligations.StepStopsOnlyFor : Prop :=
  ∀ s : State, s.abandoned = none →
    (∀ r, step s = .fault r → r = .readyWithheld ∧ ∃ slot ∈ s.slots, slot.waits = none) ∧
    (∀ r, step s = .refused r →
      (∃ op ∈ unassignedOpcodes, r = .unassignedOpcode op ∧ s.platform.unassigned = .refuse) ∨
        (r = .xthlAsInterruptInstruction ∧ s.acceptsInterrupt = true ∧ s.takePins.1.int.isSome))

/-- R20, R31, R32 (D4): the frame of the registers: in every state and under every schedule of Holds, Waits and Resets an
instruction writes only the registers, SP and pc its line says; it never writes IR, the parameters or the lines. -/
def Obligations.RegistersFrame : Prop :=
  ∀ (i : Instr) (s t : State), exec i s = .next t →
    (∀ r, r ∉ registersWritten i → t.getReg r = s.getReg r) ∧
    (writesSp i = false → t.sp = s.sp) ∧ (writesPc i = false → t.pc = s.pc) ∧ t.ir = s.ir ∧
    (i ≠ .hlt → t.halted = s.halted) ∧ t.platform = s.platform ∧ t.pins = s.pins

/-- R28 (D4, D26): which instruction writes which flag: the flags after are those before but for the columns of the instruction's
line. -/
def Obligations.FlagsFrame : Prop :=
  ∀ (i : Instr) (s t : State), exec i s = .next t → (flagEffect i).allows s.flags t.flags

/-- R33 (and D11 for `ei_inhibit`): INTE is set by EI, cleared by DI, by the acceptance of an interrupt and by Reset, by nothing else; with it 0 no
interrupt is accepted; and no program can read it: it changes no other piece of state whatever instruction runs. -/
def Obligations.InterruptEnableFlipFlop : Prop :=
  (∀ s : State, ∃ t, exec .ei s = .next t ∧ t.inte = true) ∧
  (∀ s : State, ∃ t, exec .di s = .next t ∧ t.inte = false) ∧
  (∀ (s : State) (bytes : List Byte), (s.acknowledge bytes).2.inte = false) ∧
  (∀ s : State, s.takePins.1.reset = true → ∃ t, step s = .next t ∧ t.inte = false) ∧
  (∀ (i : Instr) (s t : State), i ≠ .ei → i ≠ .di → exec i s = .next t → t.inte = s.inte) ∧
  (∀ s : State, s.inte = false → s.acceptsInterrupt = false) ∧
  (∀ s : State, s.inte = true → s.eiInhibit = false → s.acceptsInterrupt = true) ∧
  (∀ (i : Instr) (s t : State) (b : Bool), exec i s = .next t →
    ∃ u, exec i { s with inte := b } = .next u ∧ u = { t with inte := u.inte })

/-! ### Data transfer (40_data_transfer.md; the meanings are D4's) -/

/-- R111, R114: MOV r,r and MVI r write the destination register and nothing else. -/
def Obligations.MoveResult : Prop :=
  ∀ s : State,
    (∀ dst src, ∃ t, exec (.movRR dst src) s = .next t ∧
      s.Became t { s.cpu with regs := Function.update s.getReg dst (s.getReg src) } s.outside 5) ∧
    (∀ dst data, ∃ t, exec (.mviR dst data) s = .next t ∧
      s.Became t { s.cpu with regs := Function.update s.getReg dst data } s.outside 7)

/-- R113, R116, R117, R118: MOV r,M, LDA, LDAX B, LDAX D: the register gets what the read cycle gives, at the address
formed before the register is written; memory is as before. -/
def Obligations.LoadResult : Prop :=
  ∀ (s : State) (i : Instr) (dst : Reg) (a : Word) (n : Nat), LoadForm s i dst a n → s.Undisturbed →
    ∃ t, exec i s = .next t ∧
      s.Became t { s.cpu with regs := Function.update s.getReg dst (s.rawRead a).1 }
        { (s.rawRead a).2.outside with bus := s.bus ++ [.memRead a (s.rawRead a).1] } n ∧
      (∀ x, t.peek x = s.peek x) ∧ (s.HoldsMemory a → t.getReg dst = s.peek a)

/-- R112, R115, R125, R126, R127: MOV M,r, MVI M, STA, STAX B, STAX D change no register and no flag, and store one byte
at one address, where read/write memory lies (R58). -/
def Obligations.StoreResult : Prop :=
  ∀ (s : State) (i : Instr) (a : Word) (v : Byte) (n : Nat), StoreForm s i a v n →
    ∃ t, exec i s = .next t ∧ t.cpu = s.cpu ∧ t.platform = s.platform ∧ t.pins = s.pins ∧
      (s.Undisturbed → s.mem.wf →
        (∀ x, t.peek x = s.storedAt a v x (s.peek x)) ∧
          t.outside = { s.outside with mem := t.mem, bus := s.bus ++ [.memWrite a v] } ∧ t.clocks = s.clocks + n)

/-- R119, R124 (D1): LHLD: L from the address, H from the next one (0000H after FFFFH). SHLD: L to the address first,
then H to the next one. -/
def Obligations.PairTransferResult : Prop :=
  (∀ (s : State) (a : Word), s.Undisturbed →
    ∃ t, exec (.lhld a) s = .next t ∧
      s.Became t
        { s.cpu with
          regs := Function.update (Function.update s.getReg .h ((s.rawRead a).2.rawRead (a + 1)).1) .l (s.rawRead a).1 }
        { ((s.rawRead a).2.rawRead (a + 1)).2.outside with
          bus := s.bus ++ [.memRead a (s.rawRead a).1, .memRead (a + 1) ((s.rawRead a).2.rawRead (a + 1)).1] } 16 ∧
      (∀ x, t.peek x = s.peek x) ∧
      (s.HoldsMemory a → s.HoldsMemory (a + 1) → t.l = s.peek a ∧ t.h = s.peek (a + 1))) ∧
  (∀ (s : State) (a : Word),
    ∃ t, exec (.shld a) s = .next t ∧ t.cpu = s.cpu ∧ t.platform = s.platform ∧ t.pins = s.pins ∧
      (s.Undisturbed → s.mem.wf →
        (∀ x, t.peek x = s.storedAt (a + 1) s.h x (s.storedAt a s.l x (s.peek x))) ∧
          t.outside = { s.outside with
            mem := t.mem, bus := s.bus ++ [.memWrite a s.l, .memWrite (a + 1) s.h] } ∧
          t.clocks = s.clocks + 16))

/-- R120 to R123, R128, R129, R160: LXI loads its pair from its two bytes, SPHL and PCHL copy HL, XCHG swaps DE and HL. -/
def Obligations.PairMoveResult : Prop :=
  ∀ (s : State) (hi lo : Byte),
    (∃ t, exec (.lxiB (mkWord hi lo)) s = .next t ∧
      s.Became t { s.cpu with regs := Function.update (Function.update s.getReg .b hi) .c lo } s.outside 10) ∧
    (∃ t, exec (.lxiD (mkWord hi lo)) s = .next t ∧
      s.Became t { s.cpu with regs := Function.update (Function.update s.getReg .d hi) .e lo } s.outside 10) ∧
    (∃ t, exec (.lxiH (mkWord hi lo)) s = .next t ∧
      s.Became t { s.cpu with regs := Function.update (Function.update s.getReg .h hi) .l lo } s.outside 10) ∧
    (∃ t, exec (.lxiSp (mkWord hi lo)) s = .next t ∧ s.Became t { s.cpu with sp := mkWord hi lo } s.outside 10) ∧
    (∃ t, exec .sphl s = .next t ∧ s.Became t { s.cpu with sp := mkWord s.h s.l } s.outside 5) ∧
    (∃ t, exec .pchl s = .next t ∧ s.Became t { s.cpu with pc := mkWord s.h s.l } s.outside 5) ∧
    (∃ t, exec .xchg s = .next t ∧
      s.Became t
        { s.cpu with
          regs := Function.update (Function.update (Function.update (Function.update s.getReg .h s.d) .l s.e) .d s.h)
            .e s.l } s.outside 4)

/-- R130: XTHL: both reads, then H to SP+1 and L to SP, then H and L from the bytes read; SP unchanged. -/
def Obligations.XthlResult : Prop :=
  ∀ s : State, s.Undisturbed → s.mem.wf →
    ∃ t, exec .xthl s = .next t ∧
      t.cpu = { s.cpu with
        regs := Function.update (Function.update s.getReg .h ((s.rawRead s.sp).2.rawRead (s.sp + 1)).1) .l
          (s.rawRead s.sp).1 } ∧
      (∀ x, t.peek x = s.storedAt s.sp s.l x (s.storedAt (s.sp + 1) s.h x (s.peek x))) ∧
      t.outside = { ((s.rawRead s.sp).2.rawRead (s.sp + 1)).2.outside with
        mem := t.mem
        bus := s.bus ++ [.stackRead s.sp (s.rawRead s.sp).1,
          .stackRead (s.sp + 1) ((s.rawRead s.sp).2.rawRead (s.sp + 1)).1, .stackWrite (s.sp + 1) s.h,
          .stackWrite s.sp s.l] } ∧
      t.platform = s.platform ∧ t.pins = s.pins ∧ t.clocks = s.clocks + 18 ∧
      (s.HoldsMemory s.sp → s.HoldsMemory (s.sp + 1) → t.l = s.peek s.sp ∧ t.h = s.peek (s.sp + 1))

/-- R138, R139 (D8, D27): IN loads A from the port and writes no flag; OUT sends A to the port; memory is as before. -/
def Obligations.InOutResult : Prop :=
  ∀ (s : State) (port : Byte), s.Undisturbed →
    (∃ t, exec (.inPort port) s = .next t ∧
      s.Became t { s.cpu with regs := Function.update s.getReg .a (s.rawInput port).1 }
        { (s.rawInput port).2.outside with bus := s.bus ++ [.input port (s.rawInput port).1] } 10 ∧
      t.mem = s.mem ∧ ∀ v rest, port ∉ s.platform.absentInputs → s.answers = v :: rest → t.a = v ∧ t.answers = rest) ∧
    (∃ t, exec (.outPort port) s = .next t ∧
      s.Became t s.cpu { s.outside with bus := s.bus ++ [.output port s.a] } 10)

/-- R58, R65 (D17, D18, D20): MVI A,v, STA a, LDA b in direct succession: LDA b right after STA a reads the byte stored
where b = a in read/write memory, and otherwise the byte b held before. No other store, load or later read is spoken of. -/
def Obligations.LoadSeesStore : Prop :=
  ∀ (s : State) (a b : Word) (v : Byte), s.Undisturbed → s.mem.wf → s.HoldsMemory b →
    ∃ t, execAll [.mviR .a v, .sta a, .lda b] s = .next t ∧ t.a = s.storedAt a v b (s.peek b)

/-! ### Control (41_control.md; the meanings are D4's) -/

/-- R141 (D13): HLT halts, after its halt acknowledge cycle. -/
def Obligations.HltResult : Prop :=
  ∀ s : State, s.Undisturbed →
    ∃ t, exec .hlt s = .next t ∧
      s.Became t { s.cpu with halted := true } { s.outside with bus := s.bus ++ [.haltAck] } 7

/-- R142, R143, R146: STC sets CY, CMC complements it, NOP does nothing. -/
def Obligations.CarryControlResult : Prop :=
  ∀ s : State,
    (∃ t, exec .stc s = .next t ∧ s.Became t { s.cpu with flags := { s.flags with carry := true } } s.outside 4) ∧
    (∃ t, exec .cmc s = .next t ∧
      s.Became t { s.cpu with flags := { s.flags with carry := !s.flags.carry } } s.outside 4) ∧
    (∃ t, exec .nop s = .next t ∧ s.Became t s.cpu s.outside 4)

/-- R144, R145, R325 (D11): EI sets INTE and, under EI_DELAY = 1, holds interrupts off until one more instruction has
completed; under EI_DELAY = 0 one is accepted at once; DI clears INTE. -/
def Obligations.EiDiResult : Prop :=
  ∀ s : State,
    (∃ t, exec .ei s = .next t ∧
      s.Became t { s.cpu with inte := true, eiInhibit := decide (s.platform.eiDelay = .one) } s.outside 4 ∧
      t.acceptsInterrupt = decide (s.platform.eiDelay = .none)) ∧
    (∃ t, exec .di s = .next t ∧ s.Became t { s.cpu with inte := false } s.outside 4 ∧ t.acceptsInterrupt = false)

/-! ### Branch (42_branch.md; the meanings are D4's, the layout of the stack D3's) -/

/-- R151 to R159: a jump taken goes to its address, one not taken goes on; 10 clock cycles either way. -/
def Obligations.JumpResult : Prop :=
  ∀ (s : State) (i : Instr) (addr : Word) (taken : Bool), JumpForm s.flags addr i taken →
    ∃ t, exec i s = .next t ∧ s.Became t { s.cpu with pc := if taken then addr else s.pc } s.outside 10

/-- R161 to R169, R186 (D3, D9, D21): a call taken pushes pc, high byte at SP-1 first, low byte at SP-2, and goes to its
target; one not taken does nothing. -/
def Obligations.CallResult : Prop :=
  ∀ (s : State) (i : Instr) (target : Word) (taken : Bool) (n m : Nat), CallForm s.flags i target taken n m →
    ∃ t, exec i s = .next t ∧
      (taken = false → s.Became t s.cpu s.outside m) ∧
      (taken = true →
        t.cpu = { s.cpu with pc := target, sp := s.sp - 2 } ∧ t.platform = s.platform ∧ t.pins = s.pins ∧
          (s.Undisturbed → s.mem.wf →
            (∀ x, t.peek x =
              s.storedAt (s.sp - 2) (loByte s.pc) x (s.storedAt (s.sp - 1) (hiByte s.pc) x (s.peek x))) ∧
            t.outside = { s.outside with
              mem := t.mem
              bus := s.bus ++ [.stackWrite (s.sp - 1) (hiByte s.pc), .stackWrite (s.sp - 2) (loByte s.pc)] } ∧
            t.clocks = s.clocks + n))

/-- R170 to R178 (D3, D21): a return taken pops pc, low byte from SP, high byte from SP+1, and restores nothing else; one
not taken does nothing. -/
def Obligations.ReturnResult : Prop :=
  ∀ (s : State) (i : Instr) (taken : Bool) (n m : Nat), ReturnForm s.flags i taken n m → s.Undisturbed →
    ∃ t, exec i s = .next t ∧
      (taken = false → s.Became t s.cpu s.outside m) ∧
      (taken = true →
        s.Became t
          { s.cpu with
            pc := mkWord ((s.rawRead s.sp).2.rawRead (s.sp + 1)).1 (s.rawRead s.sp).1, sp := s.sp + 2 }
          { ((s.rawRead s.sp).2.rawRead (s.sp + 1)).2.outside with
            bus := s.bus ++ [.stackRead s.sp (s.rawRead s.sp).1,
              .stackRead (s.sp + 1) ((s.rawRead s.sp).2.rawRead (s.sp + 1)).1] } n ∧
        (s.HoldsMemory s.sp → s.HoldsMemory (s.sp + 1) → t.pc = mkWord (s.peek (s.sp + 1)) (s.peek s.sp)) ∧
        ∀ x, t.peek x = s.peek x)

/-! ### Arithmetic (43_arithmetic.md; the meanings are D4's) -/

/-- R191, R192, R195, R196 (D4): ADD r, ADC r, ADI, ACI: the unsigned sum modulo 256 with all five flags. -/
def Obligations.AddResult : Prop :=
  ∀ (s : State) (i : Instr) (v : Byte) (cin : Bool) (n : Nat), AddForm s i v cin n →
    ∃ t, exec i s = .next t ∧
      s.Became t
        { s.cpu with
          regs := Function.update s.getReg .a (BitVec.ofNat 8 (s.a.toNat + v.toNat + cin.toNat))
          flags := resultFlags ((s.a.toNat + v.toNat + cin.toNat) % 256)
            (decide (256 ≤ s.a.toNat + v.toNat + cin.toNat))
            (decide (16 ≤ s.a.toNat % 16 + v.toNat % 16 + cin.toNat)) } s.outside n

/-- R201, R202, R205, R206, R241, R243 (D4, D7): SUB r, SBB r, SUI, SBI: the unsigned difference modulo 256. CY is the
borrow, and AC is 1 where the low digit needs no borrow. CMP r, CPI: the flags of the subtraction, no register
written. -/
def Obligations.SubtractResult : Prop :=
  (∀ (s : State) (i : Instr) (v : Byte) (bin : Bool) (n : Nat), SubForm s i v bin n →
    ∃ t, exec i s = .next t ∧
      s.Became t
        { s.cpu with
          regs := Function.update s.getReg .a (BitVec.ofInt 8 ((s.a.toNat : ℤ) - v.toNat - bin.toNat))
          flags := resultFlags (BitVec.ofInt 8 ((s.a.toNat : ℤ) - v.toNat - bin.toNat)).toNat
            (decide (s.a.toNat < v.toNat + bin.toNat))
            (decide (v.toNat % 16 + bin.toNat ≤ s.a.toNat % 16)) } s.outside n) ∧
  (∀ (s : State) (i : Instr) (v : Byte) (n : Nat), CmpForm s i v n →
    ∃ t, exec i s = .next t ∧
      s.Became t
        { s.cpu with
          flags := resultFlags (BitVec.ofInt 8 ((s.a.toNat : ℤ) - v.toNat)).toNat (decide (s.a.toNat < v.toNat))
            (decide (v.toNat % 16 ≤ s.a.toNat % 16)) } s.outside n)

/-- The memory forms of ADD, ADC, SUB, SBB, ANA, XRA, ORA, CMP (R193, R194, R203, R204, R233, R236, R239, R242): one read
at HL, then what the immediate form does with the byte read. -/
def Obligations.MemoryOperandResult : Prop :=
  ∀ (s : State) (i j : Instr), MemoryOperandForm (s.rawRead s.hl).1 i j → s.Undisturbed →
    ∃ t u, exec i s = .next t ∧ exec j s = .next u ∧
      s.Became t u.cpu
        { (s.rawRead s.hl).2.outside with bus := s.bus ++ [.memRead s.hl (s.rawRead s.hl).1] } 7 ∧
      ∀ x, t.peek x = s.peek x

/-- R197 to R200: DAD: HL plus the pair modulo 65536, CY the carry out of bit 15, the other flags kept. -/
def Obligations.DadResult : Prop :=
  ∀ (s : State) (i : Instr) (v : Word), DadForm s i v →
    ∃ t, exec i s = .next t ∧
      s.Became t
        { s.cpu with
          regs := Function.update
            (Function.update s.getReg .h (hiByte (BitVec.ofNat 16 ((mkWord s.h s.l).toNat + v.toNat)))) .l
            (loByte (BitVec.ofNat 16 ((mkWord s.h s.l).toNat + v.toNat)))
          flags := { s.flags with carry := decide (65536 ≤ (mkWord s.h s.l).toNat + v.toNat) } } s.outside 10

/-- R207 (D6): the algorithm of DAA: 06H for the low digit, 60H for the high one, both tests on A before the
instruction; CY set or left, never cleared. -/
def Obligations.DaaResult : Prop :=
  ∀ (s : State) (low high : Nat),
    low = (if s.flags.ac = true ∨ 9 < s.a.toNat % 16 then 6 else 0) →
    high = (if s.flags.carry = true ∨ 9 < s.a.toNat / 16 ∨ (9 ≤ s.a.toNat / 16 ∧ 9 < s.a.toNat % 16) then 96 else 0) →
    ∃ t, exec .daa s = .next t ∧
      s.Became t
        { s.cpu with
          regs := Function.update s.getReg .a (BitVec.ofNat 8 (s.a.toNat + low + high))
          flags := resultFlags ((s.a.toNat + low + high) % 256) (s.flags.carry || decide (high = 96))
            (decide (16 ≤ s.a.toNat % 16 + low)) } s.outside 4

/-- R207's purpose: after the addition of two packed decimal bytes with the carry in CY, DAA leaves the two digits of the
decimal sum in A and its hundred in CY. -/
def Obligations.DaaAdjustsDecimalSum : Prop :=
  ∀ (s : State) (v : Byte) (x y : Nat), x < 100 → y < 100 →
    s.a.toNat = x / 10 * 16 + x % 10 → v.toNat = y / 10 * 16 + y % 10 →
    ∃ t, execAll [.aci v, .daa] s = .next t ∧
      t.a.toNat = (x + y + s.flags.carry.toNat) % 100 / 10 * 16 + (x + y + s.flags.carry.toNat) % 10 ∧
      t.flags.carry = decide (100 ≤ x + y + s.flags.carry.toNat)

/-! ### Stack (44_stack.md; D3, D21) -/

/-- R221 to R224: PUSH: the first register at SP-1, then the second (for PSW the flag byte of R27) at SP-2, SP two lower;
no flag and no other register written. -/
def Obligations.PushResult : Prop :=
  ∀ (s : State) (i : Instr) (hi lo : Byte), PushForm s i hi lo →
    ∃ t, exec i s = .next t ∧ t.cpu = { s.cpu with sp := s.sp - 2 } ∧ t.platform = s.platform ∧ t.pins = s.pins ∧
      (s.Undisturbed → s.mem.wf →
        (∀ x, t.peek x = s.storedAt (s.sp - 2) lo x (s.storedAt (s.sp - 1) hi x (s.peek x))) ∧
          t.outside = { s.outside with
            mem := t.mem, bus := s.bus ++ [.stackWrite (s.sp - 1) hi, .stackWrite (s.sp - 2) lo] } ∧
          t.clocks = s.clocks + 11)

/-- R225 to R228: POP: the second register from SP, the first from SP+1, SP two higher; POP PSW loads the five flags from
bits 7, 6, 4, 2, 0 of the byte at SP and A from SP+1. -/
def Obligations.PopResult : Prop :=
  ∀ (s : State) (first second : Byte), s.Undisturbed →
    second = (s.rawRead s.sp).1 → first = ((s.rawRead s.sp).2.rawRead (s.sp + 1)).1 →
    (∀ i rh rl, PopForm i rh rl →
      ∃ t, exec i s = .next t ∧
        s.Became t
          { s.cpu with regs := Function.update (Function.update s.getReg rh first) rl second, sp := s.sp + 2 }
          { ((s.rawRead s.sp).2.rawRead (s.sp + 1)).2.outside with
            bus := s.bus ++ [.stackRead s.sp second, .stackRead (s.sp + 1) first] } 10 ∧
        (∀ x, t.peek x = s.peek x) ∧
        (s.HoldsMemory s.sp → s.HoldsMemory (s.sp + 1) → second = s.peek s.sp ∧ first = s.peek (s.sp + 1))) ∧
    (∃ t, exec .popPsw s = .next t ∧
      s.Became t
        { s.cpu with
          regs := Function.update s.getReg .a first
          flags := { sign := second.getLsbD 7, zero := second.getLsbD 6, ac := second.getLsbD 4
                     parity := second.getLsbD 2, carry := second.getLsbD 0 }
          sp := s.sp + 2 }
        { ((s.rawRead s.sp).2.rawRead (s.sp + 1)).2.outside with
          bus := s.bus ++ [.stackRead s.sp second, .stackRead (s.sp + 1) first] } 10 ∧
      ∀ x, t.peek x = s.peek x)

/-- "Saving the machine state" (R32, R220): PUSH PSW, anything done to A and the flags by MVI A and STC, POP PSW: A, all
five flags and SP are back, wherever the stack lies in read/write memory. The byte pushed has bit 1 set and bits 3 and 5
clear (R27). -/
def Obligations.PushPopPsw : Prop :=
  ∀ (s : State) (v : Byte), s.Undisturbed → s.mem.wf → s.kindAt (s.sp - 1) = .ram → s.kindAt (s.sp - 2) = .ram →
    ∃ t, execAll [.pushPsw, .mviR .a v, .stc, .popPsw] s = .next t ∧ t.cpu = s.cpu ∧
      ∃ flagByte : Byte, t.peek (s.sp - 2) = flagByte ∧ flagByte.getLsbD 7 = s.flags.sign ∧
        flagByte.getLsbD 6 = s.flags.zero ∧ flagByte.getLsbD 5 = false ∧ flagByte.getLsbD 4 = s.flags.ac ∧
        flagByte.getLsbD 3 = false ∧ flagByte.getLsbD 2 = s.flags.parity ∧ flagByte.getLsbD 1 = true ∧
        flagByte.getLsbD 0 = s.flags.carry

/-! ### Logical (45_logical.md; D4, D5, D7, D26) -/

/-- R231, R232, R234, R235, R237, R238, R240: ANA r, ANI: A and the operand bit by bit, CY cleared, AC by the parameter
`ANA_AC_RULE`. XRA r, XRI, ORA r, ORI: the bitwise result in A, CY and AC cleared. -/
def Obligations.LogicResult : Prop :=
  (∀ (s : State) (i : Instr) (v : Byte) (n : Nat), AndForm s i v n →
    ∃ t, exec i s = .next t ∧
      s.Became t
        { s.cpu with
          regs := Function.update s.getReg .a (s.a &&& v)
          flags := resultFlags (s.a &&& v).toNat false
            (match s.platform.anaAc with
              | .orBit3 => s.a.getLsbD 3 || v.getLsbD 3
              | .one => true
              | .zero => false) } s.outside n) ∧
  (∀ (s : State) (i : Instr) (res : Byte) (n : Nat), OrForm s i res n →
    ∃ t, exec i s = .next t ∧
      s.Became t
        { s.cpu with
          regs := Function.update s.getReg .a res, flags := resultFlags res.toNat false false } s.outside n)

/-- R244 to R248: CMA complements A and writes no flag; the four rotates move A, with CY the bit rotated out, and write no
other flag. -/
def Obligations.RotateResult : Prop :=
  ∀ (s : State) (a cy : Nat), a = s.a.toNat → cy = s.flags.carry.toNat →
    (∃ t, exec .cma s = .next t ∧
      s.Became t { s.cpu with regs := Function.update s.getReg .a (BitVec.ofNat 8 (255 - a)) } s.outside 4) ∧
    (∃ t, exec .rlc s = .next t ∧
      s.Became t
        { s.cpu with
          regs := Function.update s.getReg .a (BitVec.ofNat 8 (2 * a + a / 128))
          flags := { s.flags with carry := decide (128 ≤ a) } } s.outside 4) ∧
    (∃ t, exec .rrc s = .next t ∧
      s.Became t
        { s.cpu with
          regs := Function.update s.getReg .a (BitVec.ofNat 8 (128 * (a % 2) + a / 2))
          flags := { s.flags with carry := decide (a % 2 = 1) } } s.outside 4) ∧
    (∃ t, exec .ral s = .next t ∧
      s.Became t
        { s.cpu with
          regs := Function.update s.getReg .a (BitVec.ofNat 8 (2 * a + cy))
          flags := { s.flags with carry := decide (128 ≤ a) } } s.outside 4) ∧
    (∃ t, exec .rar s = .next t ∧
      s.Became t
        { s.cpu with
          regs := Function.update s.getReg .a (BitVec.ofNat 8 (128 * cy + a / 2))
          flags := { s.flags with carry := decide (a % 2 = 1) } } s.outside 4)

/-! ### Increment and decrement (46_increment_decrement.md; the meanings are D4's and D7's, three cycle counts D28's) -/

/-- R261, R267: INR r and DCR r: the register one more or one less modulo 256, all flags but CY from it. -/
def Obligations.IncDecResult : Prop :=
  ∀ (s : State) (r : Reg),
    (∃ t, exec (.inrR r) s = .next t ∧
      s.Became t
        { s.cpu with
          regs := Function.update s.getReg r (BitVec.ofNat 8 ((s.getReg r).toNat + 1))
          flags := resultFlags (((s.getReg r).toNat + 1) % 256) s.flags.carry
            (decide ((s.getReg r).toNat % 16 = 15)) } s.outside 5) ∧
    (∃ t, exec (.dcrR r) s = .next t ∧
      s.Became t
        { s.cpu with
          regs := Function.update s.getReg r (BitVec.ofNat 8 ((s.getReg r).toNat + 255))
          flags := resultFlags (((s.getReg r).toNat + 255) % 256) s.flags.carry
            (decide ((s.getReg r).toNat % 16 ≠ 0)) } s.outside 5)

/-- R262, R268: INR M and DCR M: the byte read at HL, one more or one less, written back to HL; no register written. -/
def Obligations.IncDecMemoryResult : Prop :=
  ∀ (s : State) (old : Byte), s.Undisturbed → s.mem.wf → old = (s.rawRead s.hl).1 →
    (∃ t, exec .inrM s = .next t ∧
      t.cpu = { s.cpu with
        flags := resultFlags ((old.toNat + 1) % 256) s.flags.carry (decide (old.toNat % 16 = 15)) } ∧
      (∀ x, t.peek x = s.storedAt s.hl (BitVec.ofNat 8 (old.toNat + 1)) x (s.peek x)) ∧
      t.outside = { (s.rawRead s.hl).2.outside with
        mem := t.mem
        bus := s.bus ++ [.memRead s.hl old, .memWrite s.hl (BitVec.ofNat 8 (old.toNat + 1))] } ∧
      t.platform = s.platform ∧ t.pins = s.pins ∧ t.clocks = s.clocks + 10) ∧
    (∃ t, exec .dcrM s = .next t ∧
      t.cpu = { s.cpu with
        flags := resultFlags ((old.toNat + 255) % 256) s.flags.carry (decide (old.toNat % 16 ≠ 0)) } ∧
      (∀ x, t.peek x = s.storedAt s.hl (BitVec.ofNat 8 (old.toNat + 255)) x (s.peek x)) ∧
      t.outside = { (s.rawRead s.hl).2.outside with
        mem := t.mem
        bus := s.bus ++ [.memRead s.hl old, .memWrite s.hl (BitVec.ofNat 8 (old.toNat + 255))] } ∧
      t.platform = s.platform ∧ t.pins = s.pins ∧ t.clocks = s.clocks + 10)

/-- R263 to R266, R269 to R272: INX and DCX: a pair or SP one more or one less modulo 65536, no flag written. -/
def Obligations.PairStepResult : Prop :=
  ∀ s : State,
    (∀ i rh rl k, PairStepForm i rh rl k →
      ∃ t, exec i s = .next t ∧
        s.Became t
          { s.cpu with
            regs := Function.update
              (Function.update s.getReg rh
                (hiByte (BitVec.ofNat 16 ((mkWord (s.getReg rh) (s.getReg rl)).toNat + k)))) rl
              (loByte (BitVec.ofNat 16 ((mkWord (s.getReg rh) (s.getReg rl)).toNat + k))) } s.outside 5) ∧
    (∃ t, exec .inxSp s = .next t ∧
      s.Became t { s.cpu with sp := BitVec.ofNat 16 (s.sp.toNat + 1) } s.outside 5) ∧
    (∃ t, exec .dcxSp s = .next t ∧
      s.Became t { s.cpu with sp := BitVec.ofNat 16 (s.sp.toNat + 65535) } s.outside 5)
end

