-- ==== Sys2Proof/Laws/Word.lean ====
section
/-! SUPPORT. The halves of a word: their values as numbers, and how they come apart and together. -/

namespace Sys2Proof

theorem mkWord_toNat (hi lo : Byte) : (mkWord hi lo).toNat = hi.toNat * 256 + lo.toNat := by
  have h : (mkWord hi lo).toNat = hi.toNat <<< 8 ||| lo.toNat := BitVec.toNat_append hi lo
  rw [h, ← Nat.shiftLeft_add_eq_or_of_lt lo.isLt, Nat.shiftLeft_eq]

theorem hiByte_toNat (w : Word) : (hiByte w).toNat = w.toNat / 256 := by
  have := w.isLt
  simp only [hiByte, BitVec.extractLsb'_toNat, Nat.shiftRight_eq_div_pow]
  omega

theorem loByte_toNat (w : Word) : (loByte w).toNat = w.toNat % 256 := by
  simp [loByte, BitVec.extractLsb'_toNat]

/-- The two halves of a word make the word. -/
@[simp] theorem mkWord_split (w : Word) : mkWord (hiByte w) (loByte w) = w := by
  apply BitVec.eq_of_toNat_eq
  rw [mkWord_toNat, hiByte_toNat, loByte_toNat]
  omega

@[simp] theorem hiByte_mkWord (hi lo : Byte) : hiByte (mkWord hi lo) = hi := by
  apply BitVec.eq_of_toNat_eq
  have := lo.isLt
  rw [hiByte_toNat, mkWord_toNat]
  omega

@[simp] theorem loByte_mkWord (hi lo : Byte) : loByte (mkWord hi lo) = lo := by
  apply BitVec.eq_of_toNat_eq
  have := lo.isLt
  rw [loByte_toNat, mkWord_toNat]
  omega

/-! ### Sums given as numbers -/

theorem word_ofNat_add (x y : Word) : BitVec.ofNat 16 (x.toNat + y.toNat) = x + y := by
  apply BitVec.eq_of_toNat_eq
  simp [BitVec.toNat_add]

theorem word_ofNat_succ (x : Word) : BitVec.ofNat 16 (x.toNat + 1) = x + 1 := by
  apply BitVec.eq_of_toNat_eq
  simp [BitVec.toNat_add]

theorem word_ofNat_pred (x : Word) : BitVec.ofNat 16 (x.toNat + 65535) = x - 1 := by
  apply BitVec.eq_of_toNat_eq
  simp [BitVec.toNat_sub]
  omega

theorem byte_ofNat_succ (v : Byte) : BitVec.ofNat 8 (v.toNat + 1) = v + 1 := by
  apply BitVec.eq_of_toNat_eq
  simp [BitVec.toNat_add]

theorem byte_ofNat_pred (v : Byte) : BitVec.ofNat 8 (v.toNat + 255) = v - 1 := by
  apply BitVec.eq_of_toNat_eq
  simp [BitVec.toNat_sub]
  omega

/-- The two addresses of a pushed pair are different, for every stack pointer. -/
theorem sub_one_ne_sub_two (w : Word) : w - 1 ≠ w - 2 := by bv_omega

/-- An address and the next one are different. -/
theorem add_one_ne (w : Word) : w + 1 ≠ w := by bv_omega

end Sys2Proof
end

