-- ==== Sys2Proof/Laws/Flags.lean ====
section
/-! SUPPORT. What the flag computations give, as numbers: one lemma per component of each. -/

namespace Sys2Proof.Machine

theorem toNat_lt_two (b : Bool) : b.toNat < 2 := by cases b <;> decide

theorem ofBool_toNat (b : Bool) : (BitVec.ofBool b).toNat = b.toNat := by cases b <;> rfl

/-! ### `add8`: unsigned sum, carry out of bit 7, carry out of bit 3 -/

theorem add8_res (a b : Byte) (cin : Bool) :
    (add8 a b cin).res = BitVec.ofNat 8 (a.toNat + b.toNat + cin.toNat) := by
  apply BitVec.eq_of_toNat_eq
  have := a.isLt; have := b.isLt; have := toNat_lt_two cin
  simp only [add8, BitVec.extractLsb'_toNat, BitVec.toNat_add, BitVec.toNat_setWidth, ofBool_toNat, BitVec.toNat_ofNat,
    Nat.shiftRight_zero]
  omega

theorem add8_carry (a b : Byte) (cin : Bool) :
    (add8 a b cin).carry = decide (256 ≤ a.toNat + b.toNat + cin.toNat) := by
  have ha := a.isLt; have hb := b.isLt; have hc := toNat_lt_two cin
  simp only [add8, BitVec.getLsbD, Nat.testBit_eq_decide_div_mod_eq, BitVec.toNat_add, BitVec.toNat_setWidth,
    ofBool_toNat]
  apply decide_eq_decide.2
  omega

theorem add8_ac (a b : Byte) (cin : Bool) :
    (add8 a b cin).ac = decide (16 ≤ a.toNat % 16 + b.toNat % 16 + cin.toNat) := by
  have ha := a.isLt; have hb := b.isLt; have hc := toNat_lt_two cin
  simp only [add8, BitVec.getLsbD, Nat.testBit_eq_decide_div_mod_eq, BitVec.extractLsb'_toNat,
    BitVec.toNat_add, BitVec.toNat_setWidth, ofBool_toNat, Nat.shiftRight_zero]
  apply decide_eq_decide.2
  omega

/-! ### `sub8`: unsigned difference, borrow out of bit 7, no borrow out of bit 3 -/

theorem not_toNat (b : Byte) : (~~~b).toNat = 255 - b.toNat := by
  simp [BitVec.toNat_not]

theorem sub8_res (a b : Byte) (bin : Bool) :
    (sub8 a b bin).res = BitVec.ofInt 8 ((a.toNat : ℤ) - b.toNat - bin.toNat) := by
  apply BitVec.eq_of_toNat_eq
  have ha := a.isLt; have hb := b.isLt
  have hr : (sub8 a b bin).res = (add8 a (~~~b) (!bin)).res := rfl
  rw [hr, add8_res, BitVec.toNat_ofNat, BitVec.toNat_ofInt, not_toNat]
  cases bin <;> simp <;> omega

theorem sub8_carry (a b : Byte) (bin : Bool) :
    (sub8 a b bin).carry = decide (a.toNat < b.toNat + bin.toNat) := by
  have ha := a.isLt; have hb := b.isLt
  have hr : (sub8 a b bin).carry = !(add8 a (~~~b) (!bin)).carry := rfl
  rw [hr, add8_carry, not_toNat, ← decide_not]
  apply decide_eq_decide.2
  cases bin <;> simp <;> omega

theorem sub8_ac (a b : Byte) (bin : Bool) :
    (sub8 a b bin).ac = decide (b.toNat % 16 + bin.toNat ≤ a.toNat % 16) := by
  have ha := a.isLt; have hb := b.isLt
  have hr : (sub8 a b bin).ac = (add8 a (~~~b) (!bin)).ac := rfl
  rw [hr, add8_ac, not_toNat]
  apply decide_eq_decide.2
  cases bin <;> simp <;> omega

/-! ### `add16` -/

theorem add16_res (x y : Word) : (add16 x y).1 = x + y := by
  apply BitVec.eq_of_toNat_eq
  have hx := x.isLt; have hy := y.isLt
  simp only [add16, BitVec.extractLsb'_toNat, BitVec.toNat_add, BitVec.toNat_setWidth, Nat.shiftRight_zero]
  omega

theorem add16_carry (x y : Word) : (add16 x y).2 = decide (65536 ≤ x.toNat + y.toNat) := by
  have hx := x.isLt; have hy := y.isLt
  simp only [add16, BitVec.getLsbD, Nat.testBit_eq_decide_div_mod_eq, BitVec.toNat_add, BitVec.toNat_setWidth]
  apply decide_eq_decide.2
  omega

/-! ### All five flags from a result -/

theorem getLsbD_seven (v : Byte) : v.getLsbD 7 = decide (128 ≤ v.toNat) := by
  have hv := v.isLt
  rw [BitVec.getLsbD, Nat.testBit_eq_decide_div_mod_eq]
  apply decide_eq_decide.2
  omega

theorem beq_zero (v : Byte) : (v == 0) = decide (v.toNat = 0) := by
  rw [beq_eq_decide]
  apply decide_eq_decide.2
  constructor
  · rintro rfl; rfl
  · intro h; exact BitVec.eq_of_toNat_eq h

theorem ofResult_eq_resultFlags (v : Byte) (carry ac : Bool) :
    Flags.ofResult v carry ac = resultFlags v.toNat carry ac := by
  simp only [Flags.ofResult, resultFlags, getLsbD_seven, beq_zero, BitVec.ofNat_toNat, BitVec.setWidth_eq]

@[simp] theorem Flags.ofResult_carry (v : Byte) (carry ac : Bool) : (Flags.ofResult v carry ac).carry = carry := rfl

@[simp] theorem Flags.ofResult_ac (v : Byte) (carry ac : Bool) : (Flags.ofResult v carry ac).ac = ac := rfl

@[simp] theorem Flags.setSZP_carry (f : Flags) (v : Byte) : (f.setSZP v).carry = f.carry := rfl

@[simp] theorem Flags.setSZP_ac (f : Flags) (v : Byte) : (f.setSZP v).ac = f.ac := rfl

/-! ### The bits of the flag byte (10_state.md R27) -/

@[simp] theorem Flags.toByte_bit7 (f : Flags) : f.toByte.getLsbD 7 = f.sign := by
  rcases f with ⟨_ | _, _ | _, _ | _, _ | _, _ | _⟩ <;> rfl

@[simp] theorem Flags.toByte_bit6 (f : Flags) : f.toByte.getLsbD 6 = f.zero := by
  rcases f with ⟨_ | _, _ | _, _ | _, _ | _, _ | _⟩ <;> rfl

@[simp] theorem Flags.toByte_bit4 (f : Flags) : f.toByte.getLsbD 4 = f.ac := by
  rcases f with ⟨_ | _, _ | _, _ | _, _ | _, _ | _⟩ <;> rfl

@[simp] theorem Flags.toByte_bit2 (f : Flags) : f.toByte.getLsbD 2 = f.parity := by
  rcases f with ⟨_ | _, _ | _, _ | _, _ | _, _ | _⟩ <;> rfl

@[simp] theorem Flags.toByte_bit0 (f : Flags) : f.toByte.getLsbD 0 = f.carry := by
  rcases f with ⟨_ | _, _ | _, _ | _, _ | _, _ | _⟩ <;> rfl

/-! ### Increment and decrement keep CY -/

@[simp] theorem incFlags_carry (f : Flags) (v : Byte) : (incFlags f v).2.carry = f.carry := rfl

@[simp] theorem decFlags_carry (f : Flags) (v : Byte) : (decFlags f v).2.carry = f.carry := rfl

theorem incFlags_value (f : Flags) (v : Byte) : (incFlags f v).1 = v + 1 := by
  have h : (incFlags f v).1 = (add8 v 1 false).res := rfl
  rw [h, add8_res]
  apply BitVec.eq_of_toNat_eq
  simp [BitVec.toNat_add]

theorem decFlags_value (f : Flags) (v : Byte) : (decFlags f v).1 = v - 1 := by
  have h : (decFlags f v).1 = (sub8 v 1 false).res := rfl
  rw [h, sub8_res]
  apply BitVec.eq_of_toNat_eq
  have hv := v.isLt
  rw [BitVec.toNat_ofInt, BitVec.toNat_sub]
  simp
  omega

/-- The flags after INR: all of an 8-bit result, CY kept. -/
theorem incFlags_flags (f : Flags) (v : Byte) :
    (incFlags f v).2 = Flags.ofResult (v + 1) f.carry (decide (v.toNat % 16 = 15)) := by
  have hr : (add8 v 1 false).res = v + 1 := incFlags_value f v
  have ha : (add8 v 1 false).ac = decide (v.toNat % 16 = 15) := by
    rw [add8_ac]
    apply decide_eq_decide.2
    simp
    omega
  simp only [incFlags, Flags.setSZP, Flags.ofResult, hr, ha]

/-- The flags after DCR: all of an 8-bit result, CY kept. -/
theorem decFlags_flags (f : Flags) (v : Byte) :
    (decFlags f v).2 = Flags.ofResult (v - 1) f.carry (decide (v.toNat % 16 ≠ 0)) := by
  have hr : (sub8 v 1 false).res = v - 1 := decFlags_value f v
  have ha : (sub8 v 1 false).ac = decide (v.toNat % 16 ≠ 0) := by
    rw [sub8_ac]
    apply decide_eq_decide.2
    simp
    omega
  simp only [decFlags, Flags.setSZP, Flags.ofResult, hr, ha]

/-! ### The target of RST (42_branch.md R186) -/

theorem rst_target (vvv : BitVec 3) : (0#10 ++ vvv ++ 0#3 : Word) = BitVec.ofNat 16 (8 * vvv.toNat) := by
  revert vvv; decide

end Sys2Proof.Machine
end

