-- ==== Sys2Proof/Laws/State.lean ====
section
/-! SUPPORT. One lemma per field of State per plain update, each true by `rfl`: a later proof never unfolds a record
update. The views (registers by code, pairs, memory, kinds) follow from them. -/

namespace Sys2Proof.Machine


variable (s : State)

/-! ### `setA` -/

@[simp] theorem State.setA_a (v : Byte) : (s.setA v).a = v := rfl
@[simp] theorem State.setA_b (v : Byte) : (s.setA v).b = s.b := rfl
@[simp] theorem State.setA_c (v : Byte) : (s.setA v).c = s.c := rfl
@[simp] theorem State.setA_d (v : Byte) : (s.setA v).d = s.d := rfl
@[simp] theorem State.setA_e (v : Byte) : (s.setA v).e = s.e := rfl
@[simp] theorem State.setA_h (v : Byte) : (s.setA v).h = s.h := rfl
@[simp] theorem State.setA_l (v : Byte) : (s.setA v).l = s.l := rfl
@[simp] theorem State.setA_sp (v : Byte) : (s.setA v).sp = s.sp := rfl
@[simp] theorem State.setA_pc (v : Byte) : (s.setA v).pc = s.pc := rfl
@[simp] theorem State.setA_flags (v : Byte) : (s.setA v).flags = s.flags := rfl
@[simp] theorem State.setA_inte (v : Byte) : (s.setA v).inte = s.inte := rfl
@[simp] theorem State.setA_halted (v : Byte) : (s.setA v).halted = s.halted := rfl
@[simp] theorem State.setA_eiInhibit (v : Byte) : (s.setA v).eiInhibit = s.eiInhibit := rfl
@[simp] theorem State.setA_ir (v : Byte) : (s.setA v).ir = s.ir := rfl
@[simp] theorem State.setA_hlda (v : Byte) : (s.setA v).hlda = s.hlda := rfl
@[simp] theorem State.setA_mem (v : Byte) : (s.setA v).mem = s.mem := rfl
@[simp] theorem State.setA_platform (v : Byte) : (s.setA v).platform = s.platform := rfl
@[simp] theorem State.setA_pins (v : Byte) : (s.setA v).pins = s.pins := rfl
@[simp] theorem State.setA_slots (v : Byte) : (s.setA v).slots = s.slots := rfl
@[simp] theorem State.setA_answers (v : Byte) : (s.setA v).answers = s.answers := rfl
@[simp] theorem State.setA_draws (v : Byte) : (s.setA v).draws = s.draws := rfl
@[simp] theorem State.setA_abandoned (v : Byte) : (s.setA v).abandoned = s.abandoned := rfl
@[simp] theorem State.setA_bus (v : Byte) : (s.setA v).bus = s.bus := rfl
@[simp] theorem State.setA_waitStates (v : Byte) : (s.setA v).waitStates = s.waitStates := rfl
@[simp] theorem State.setA_clocks (v : Byte) : (s.setA v).clocks = s.clocks := rfl
@[simp] theorem State.setA_peek (v : Byte) (q : Word) : (s.setA v).peek q = s.peek q := rfl
@[simp] theorem State.setA_kindAt (v : Byte) (q : Word) : (s.setA v).kindAt q = s.kindAt q := rfl
@[simp] theorem State.setA_bc (v : Byte) : (s.setA v).bc = s.bc := rfl
@[simp] theorem State.setA_de (v : Byte) : (s.setA v).de = s.de := rfl
@[simp] theorem State.setA_hl (v : Byte) : (s.setA v).hl = s.hl := rfl

/-! ### `setBc` -/

@[simp] theorem State.setBc_a (v : Word) : (s.setBc v).a = s.a := rfl
@[simp] theorem State.setBc_b (v : Word) : (s.setBc v).b = hiByte v := rfl
@[simp] theorem State.setBc_c (v : Word) : (s.setBc v).c = loByte v := rfl
@[simp] theorem State.setBc_d (v : Word) : (s.setBc v).d = s.d := rfl
@[simp] theorem State.setBc_e (v : Word) : (s.setBc v).e = s.e := rfl
@[simp] theorem State.setBc_h (v : Word) : (s.setBc v).h = s.h := rfl
@[simp] theorem State.setBc_l (v : Word) : (s.setBc v).l = s.l := rfl
@[simp] theorem State.setBc_sp (v : Word) : (s.setBc v).sp = s.sp := rfl
@[simp] theorem State.setBc_pc (v : Word) : (s.setBc v).pc = s.pc := rfl
@[simp] theorem State.setBc_flags (v : Word) : (s.setBc v).flags = s.flags := rfl
@[simp] theorem State.setBc_inte (v : Word) : (s.setBc v).inte = s.inte := rfl
@[simp] theorem State.setBc_halted (v : Word) : (s.setBc v).halted = s.halted := rfl
@[simp] theorem State.setBc_eiInhibit (v : Word) : (s.setBc v).eiInhibit = s.eiInhibit := rfl
@[simp] theorem State.setBc_ir (v : Word) : (s.setBc v).ir = s.ir := rfl
@[simp] theorem State.setBc_hlda (v : Word) : (s.setBc v).hlda = s.hlda := rfl
@[simp] theorem State.setBc_mem (v : Word) : (s.setBc v).mem = s.mem := rfl
@[simp] theorem State.setBc_platform (v : Word) : (s.setBc v).platform = s.platform := rfl
@[simp] theorem State.setBc_pins (v : Word) : (s.setBc v).pins = s.pins := rfl
@[simp] theorem State.setBc_slots (v : Word) : (s.setBc v).slots = s.slots := rfl
@[simp] theorem State.setBc_answers (v : Word) : (s.setBc v).answers = s.answers := rfl
@[simp] theorem State.setBc_draws (v : Word) : (s.setBc v).draws = s.draws := rfl
@[simp] theorem State.setBc_abandoned (v : Word) : (s.setBc v).abandoned = s.abandoned := rfl
@[simp] theorem State.setBc_bus (v : Word) : (s.setBc v).bus = s.bus := rfl
@[simp] theorem State.setBc_waitStates (v : Word) : (s.setBc v).waitStates = s.waitStates := rfl
@[simp] theorem State.setBc_clocks (v : Word) : (s.setBc v).clocks = s.clocks := rfl
@[simp] theorem State.setBc_peek (v : Word) (q : Word) : (s.setBc v).peek q = s.peek q := rfl
@[simp] theorem State.setBc_kindAt (v : Word) (q : Word) : (s.setBc v).kindAt q = s.kindAt q := rfl
@[simp] theorem State.setBc_bc (v : Word) : (s.setBc v).bc = v := mkWord_split v
@[simp] theorem State.setBc_de (v : Word) : (s.setBc v).de = s.de := rfl
@[simp] theorem State.setBc_hl (v : Word) : (s.setBc v).hl = s.hl := rfl

/-! ### `setDe` -/

@[simp] theorem State.setDe_a (v : Word) : (s.setDe v).a = s.a := rfl
@[simp] theorem State.setDe_b (v : Word) : (s.setDe v).b = s.b := rfl
@[simp] theorem State.setDe_c (v : Word) : (s.setDe v).c = s.c := rfl
@[simp] theorem State.setDe_d (v : Word) : (s.setDe v).d = hiByte v := rfl
@[simp] theorem State.setDe_e (v : Word) : (s.setDe v).e = loByte v := rfl
@[simp] theorem State.setDe_h (v : Word) : (s.setDe v).h = s.h := rfl
@[simp] theorem State.setDe_l (v : Word) : (s.setDe v).l = s.l := rfl
@[simp] theorem State.setDe_sp (v : Word) : (s.setDe v).sp = s.sp := rfl
@[simp] theorem State.setDe_pc (v : Word) : (s.setDe v).pc = s.pc := rfl
@[simp] theorem State.setDe_flags (v : Word) : (s.setDe v).flags = s.flags := rfl
@[simp] theorem State.setDe_inte (v : Word) : (s.setDe v).inte = s.inte := rfl
@[simp] theorem State.setDe_halted (v : Word) : (s.setDe v).halted = s.halted := rfl
@[simp] theorem State.setDe_eiInhibit (v : Word) : (s.setDe v).eiInhibit = s.eiInhibit := rfl
@[simp] theorem State.setDe_ir (v : Word) : (s.setDe v).ir = s.ir := rfl
@[simp] theorem State.setDe_hlda (v : Word) : (s.setDe v).hlda = s.hlda := rfl
@[simp] theorem State.setDe_mem (v : Word) : (s.setDe v).mem = s.mem := rfl
@[simp] theorem State.setDe_platform (v : Word) : (s.setDe v).platform = s.platform := rfl
@[simp] theorem State.setDe_pins (v : Word) : (s.setDe v).pins = s.pins := rfl
@[simp] theorem State.setDe_slots (v : Word) : (s.setDe v).slots = s.slots := rfl
@[simp] theorem State.setDe_answers (v : Word) : (s.setDe v).answers = s.answers := rfl
@[simp] theorem State.setDe_draws (v : Word) : (s.setDe v).draws = s.draws := rfl
@[simp] theorem State.setDe_abandoned (v : Word) : (s.setDe v).abandoned = s.abandoned := rfl
@[simp] theorem State.setDe_bus (v : Word) : (s.setDe v).bus = s.bus := rfl
@[simp] theorem State.setDe_waitStates (v : Word) : (s.setDe v).waitStates = s.waitStates := rfl
@[simp] theorem State.setDe_clocks (v : Word) : (s.setDe v).clocks = s.clocks := rfl
@[simp] theorem State.setDe_peek (v : Word) (q : Word) : (s.setDe v).peek q = s.peek q := rfl
@[simp] theorem State.setDe_kindAt (v : Word) (q : Word) : (s.setDe v).kindAt q = s.kindAt q := rfl
@[simp] theorem State.setDe_bc (v : Word) : (s.setDe v).bc = s.bc := rfl
@[simp] theorem State.setDe_de (v : Word) : (s.setDe v).de = v := mkWord_split v
@[simp] theorem State.setDe_hl (v : Word) : (s.setDe v).hl = s.hl := rfl

/-! ### `setHl` -/

@[simp] theorem State.setHl_a (v : Word) : (s.setHl v).a = s.a := rfl
@[simp] theorem State.setHl_b (v : Word) : (s.setHl v).b = s.b := rfl
@[simp] theorem State.setHl_c (v : Word) : (s.setHl v).c = s.c := rfl
@[simp] theorem State.setHl_d (v : Word) : (s.setHl v).d = s.d := rfl
@[simp] theorem State.setHl_e (v : Word) : (s.setHl v).e = s.e := rfl
@[simp] theorem State.setHl_h (v : Word) : (s.setHl v).h = hiByte v := rfl
@[simp] theorem State.setHl_l (v : Word) : (s.setHl v).l = loByte v := rfl
@[simp] theorem State.setHl_sp (v : Word) : (s.setHl v).sp = s.sp := rfl
@[simp] theorem State.setHl_pc (v : Word) : (s.setHl v).pc = s.pc := rfl
@[simp] theorem State.setHl_flags (v : Word) : (s.setHl v).flags = s.flags := rfl
@[simp] theorem State.setHl_inte (v : Word) : (s.setHl v).inte = s.inte := rfl
@[simp] theorem State.setHl_halted (v : Word) : (s.setHl v).halted = s.halted := rfl
@[simp] theorem State.setHl_eiInhibit (v : Word) : (s.setHl v).eiInhibit = s.eiInhibit := rfl
@[simp] theorem State.setHl_ir (v : Word) : (s.setHl v).ir = s.ir := rfl
@[simp] theorem State.setHl_hlda (v : Word) : (s.setHl v).hlda = s.hlda := rfl
@[simp] theorem State.setHl_mem (v : Word) : (s.setHl v).mem = s.mem := rfl
@[simp] theorem State.setHl_platform (v : Word) : (s.setHl v).platform = s.platform := rfl
@[simp] theorem State.setHl_pins (v : Word) : (s.setHl v).pins = s.pins := rfl
@[simp] theorem State.setHl_slots (v : Word) : (s.setHl v).slots = s.slots := rfl
@[simp] theorem State.setHl_answers (v : Word) : (s.setHl v).answers = s.answers := rfl
@[simp] theorem State.setHl_draws (v : Word) : (s.setHl v).draws = s.draws := rfl
@[simp] theorem State.setHl_abandoned (v : Word) : (s.setHl v).abandoned = s.abandoned := rfl
@[simp] theorem State.setHl_bus (v : Word) : (s.setHl v).bus = s.bus := rfl
@[simp] theorem State.setHl_waitStates (v : Word) : (s.setHl v).waitStates = s.waitStates := rfl
@[simp] theorem State.setHl_clocks (v : Word) : (s.setHl v).clocks = s.clocks := rfl
@[simp] theorem State.setHl_peek (v : Word) (q : Word) : (s.setHl v).peek q = s.peek q := rfl
@[simp] theorem State.setHl_kindAt (v : Word) (q : Word) : (s.setHl v).kindAt q = s.kindAt q := rfl
@[simp] theorem State.setHl_bc (v : Word) : (s.setHl v).bc = s.bc := rfl
@[simp] theorem State.setHl_de (v : Word) : (s.setHl v).de = s.de := rfl
@[simp] theorem State.setHl_hl (v : Word) : (s.setHl v).hl = v := mkWord_split v

/-! ### `setSp` -/

@[simp] theorem State.setSp_a (v : Word) : (s.setSp v).a = s.a := rfl
@[simp] theorem State.setSp_b (v : Word) : (s.setSp v).b = s.b := rfl
@[simp] theorem State.setSp_c (v : Word) : (s.setSp v).c = s.c := rfl
@[simp] theorem State.setSp_d (v : Word) : (s.setSp v).d = s.d := rfl
@[simp] theorem State.setSp_e (v : Word) : (s.setSp v).e = s.e := rfl
@[simp] theorem State.setSp_h (v : Word) : (s.setSp v).h = s.h := rfl
@[simp] theorem State.setSp_l (v : Word) : (s.setSp v).l = s.l := rfl
@[simp] theorem State.setSp_sp (v : Word) : (s.setSp v).sp = v := rfl
@[simp] theorem State.setSp_pc (v : Word) : (s.setSp v).pc = s.pc := rfl
@[simp] theorem State.setSp_flags (v : Word) : (s.setSp v).flags = s.flags := rfl
@[simp] theorem State.setSp_inte (v : Word) : (s.setSp v).inte = s.inte := rfl
@[simp] theorem State.setSp_halted (v : Word) : (s.setSp v).halted = s.halted := rfl
@[simp] theorem State.setSp_eiInhibit (v : Word) : (s.setSp v).eiInhibit = s.eiInhibit := rfl
@[simp] theorem State.setSp_ir (v : Word) : (s.setSp v).ir = s.ir := rfl
@[simp] theorem State.setSp_hlda (v : Word) : (s.setSp v).hlda = s.hlda := rfl
@[simp] theorem State.setSp_mem (v : Word) : (s.setSp v).mem = s.mem := rfl
@[simp] theorem State.setSp_platform (v : Word) : (s.setSp v).platform = s.platform := rfl
@[simp] theorem State.setSp_pins (v : Word) : (s.setSp v).pins = s.pins := rfl
@[simp] theorem State.setSp_slots (v : Word) : (s.setSp v).slots = s.slots := rfl
@[simp] theorem State.setSp_answers (v : Word) : (s.setSp v).answers = s.answers := rfl
@[simp] theorem State.setSp_draws (v : Word) : (s.setSp v).draws = s.draws := rfl
@[simp] theorem State.setSp_abandoned (v : Word) : (s.setSp v).abandoned = s.abandoned := rfl
@[simp] theorem State.setSp_bus (v : Word) : (s.setSp v).bus = s.bus := rfl
@[simp] theorem State.setSp_waitStates (v : Word) : (s.setSp v).waitStates = s.waitStates := rfl
@[simp] theorem State.setSp_clocks (v : Word) : (s.setSp v).clocks = s.clocks := rfl
@[simp] theorem State.setSp_peek (v : Word) (q : Word) : (s.setSp v).peek q = s.peek q := rfl
@[simp] theorem State.setSp_kindAt (v : Word) (q : Word) : (s.setSp v).kindAt q = s.kindAt q := rfl
@[simp] theorem State.setSp_bc (v : Word) : (s.setSp v).bc = s.bc := rfl
@[simp] theorem State.setSp_de (v : Word) : (s.setSp v).de = s.de := rfl
@[simp] theorem State.setSp_hl (v : Word) : (s.setSp v).hl = s.hl := rfl
@[simp] theorem State.setSp_getReg (v : Word) (r : Reg) : (s.setSp v).getReg r = s.getReg r := by cases r <;> rfl

/-! ### `setPc` -/

@[simp] theorem State.setPc_a (v : Word) : (s.setPc v).a = s.a := rfl
@[simp] theorem State.setPc_b (v : Word) : (s.setPc v).b = s.b := rfl
@[simp] theorem State.setPc_c (v : Word) : (s.setPc v).c = s.c := rfl
@[simp] theorem State.setPc_d (v : Word) : (s.setPc v).d = s.d := rfl
@[simp] theorem State.setPc_e (v : Word) : (s.setPc v).e = s.e := rfl
@[simp] theorem State.setPc_h (v : Word) : (s.setPc v).h = s.h := rfl
@[simp] theorem State.setPc_l (v : Word) : (s.setPc v).l = s.l := rfl
@[simp] theorem State.setPc_sp (v : Word) : (s.setPc v).sp = s.sp := rfl
@[simp] theorem State.setPc_pc (v : Word) : (s.setPc v).pc = v := rfl
@[simp] theorem State.setPc_flags (v : Word) : (s.setPc v).flags = s.flags := rfl
@[simp] theorem State.setPc_inte (v : Word) : (s.setPc v).inte = s.inte := rfl
@[simp] theorem State.setPc_halted (v : Word) : (s.setPc v).halted = s.halted := rfl
@[simp] theorem State.setPc_eiInhibit (v : Word) : (s.setPc v).eiInhibit = s.eiInhibit := rfl
@[simp] theorem State.setPc_ir (v : Word) : (s.setPc v).ir = s.ir := rfl
@[simp] theorem State.setPc_hlda (v : Word) : (s.setPc v).hlda = s.hlda := rfl
@[simp] theorem State.setPc_mem (v : Word) : (s.setPc v).mem = s.mem := rfl
@[simp] theorem State.setPc_platform (v : Word) : (s.setPc v).platform = s.platform := rfl
@[simp] theorem State.setPc_pins (v : Word) : (s.setPc v).pins = s.pins := rfl
@[simp] theorem State.setPc_slots (v : Word) : (s.setPc v).slots = s.slots := rfl
@[simp] theorem State.setPc_answers (v : Word) : (s.setPc v).answers = s.answers := rfl
@[simp] theorem State.setPc_draws (v : Word) : (s.setPc v).draws = s.draws := rfl
@[simp] theorem State.setPc_abandoned (v : Word) : (s.setPc v).abandoned = s.abandoned := rfl
@[simp] theorem State.setPc_bus (v : Word) : (s.setPc v).bus = s.bus := rfl
@[simp] theorem State.setPc_waitStates (v : Word) : (s.setPc v).waitStates = s.waitStates := rfl
@[simp] theorem State.setPc_clocks (v : Word) : (s.setPc v).clocks = s.clocks := rfl
@[simp] theorem State.setPc_peek (v : Word) (q : Word) : (s.setPc v).peek q = s.peek q := rfl
@[simp] theorem State.setPc_kindAt (v : Word) (q : Word) : (s.setPc v).kindAt q = s.kindAt q := rfl
@[simp] theorem State.setPc_bc (v : Word) : (s.setPc v).bc = s.bc := rfl
@[simp] theorem State.setPc_de (v : Word) : (s.setPc v).de = s.de := rfl
@[simp] theorem State.setPc_hl (v : Word) : (s.setPc v).hl = s.hl := rfl
@[simp] theorem State.setPc_getReg (v : Word) (r : Reg) : (s.setPc v).getReg r = s.getReg r := by cases r <;> rfl

/-! ### `setFlags` -/

@[simp] theorem State.setFlags_a (f : Flags) : (s.setFlags f).a = s.a := rfl
@[simp] theorem State.setFlags_b (f : Flags) : (s.setFlags f).b = s.b := rfl
@[simp] theorem State.setFlags_c (f : Flags) : (s.setFlags f).c = s.c := rfl
@[simp] theorem State.setFlags_d (f : Flags) : (s.setFlags f).d = s.d := rfl
@[simp] theorem State.setFlags_e (f : Flags) : (s.setFlags f).e = s.e := rfl
@[simp] theorem State.setFlags_h (f : Flags) : (s.setFlags f).h = s.h := rfl
@[simp] theorem State.setFlags_l (f : Flags) : (s.setFlags f).l = s.l := rfl
@[simp] theorem State.setFlags_sp (f : Flags) : (s.setFlags f).sp = s.sp := rfl
@[simp] theorem State.setFlags_pc (f : Flags) : (s.setFlags f).pc = s.pc := rfl
@[simp] theorem State.setFlags_flags (f : Flags) : (s.setFlags f).flags = f := rfl
@[simp] theorem State.setFlags_inte (f : Flags) : (s.setFlags f).inte = s.inte := rfl
@[simp] theorem State.setFlags_halted (f : Flags) : (s.setFlags f).halted = s.halted := rfl
@[simp] theorem State.setFlags_eiInhibit (f : Flags) : (s.setFlags f).eiInhibit = s.eiInhibit := rfl
@[simp] theorem State.setFlags_ir (f : Flags) : (s.setFlags f).ir = s.ir := rfl
@[simp] theorem State.setFlags_hlda (f : Flags) : (s.setFlags f).hlda = s.hlda := rfl
@[simp] theorem State.setFlags_mem (f : Flags) : (s.setFlags f).mem = s.mem := rfl
@[simp] theorem State.setFlags_platform (f : Flags) : (s.setFlags f).platform = s.platform := rfl
@[simp] theorem State.setFlags_pins (f : Flags) : (s.setFlags f).pins = s.pins := rfl
@[simp] theorem State.setFlags_slots (f : Flags) : (s.setFlags f).slots = s.slots := rfl
@[simp] theorem State.setFlags_answers (f : Flags) : (s.setFlags f).answers = s.answers := rfl
@[simp] theorem State.setFlags_draws (f : Flags) : (s.setFlags f).draws = s.draws := rfl
@[simp] theorem State.setFlags_abandoned (f : Flags) : (s.setFlags f).abandoned = s.abandoned := rfl
@[simp] theorem State.setFlags_bus (f : Flags) : (s.setFlags f).bus = s.bus := rfl
@[simp] theorem State.setFlags_waitStates (f : Flags) : (s.setFlags f).waitStates = s.waitStates := rfl
@[simp] theorem State.setFlags_clocks (f : Flags) : (s.setFlags f).clocks = s.clocks := rfl
@[simp] theorem State.setFlags_peek (f : Flags) (q : Word) : (s.setFlags f).peek q = s.peek q := rfl
@[simp] theorem State.setFlags_kindAt (f : Flags) (q : Word) : (s.setFlags f).kindAt q = s.kindAt q := rfl
@[simp] theorem State.setFlags_bc (f : Flags) : (s.setFlags f).bc = s.bc := rfl
@[simp] theorem State.setFlags_de (f : Flags) : (s.setFlags f).de = s.de := rfl
@[simp] theorem State.setFlags_hl (f : Flags) : (s.setFlags f).hl = s.hl := rfl
@[simp] theorem State.setFlags_getReg (f : Flags) (r : Reg) : (s.setFlags f).getReg r = s.getReg r := by cases r <;> rfl

/-! ### `setCarry` -/

@[simp] theorem State.setCarry_a (v : Bool) : (s.setCarry v).a = s.a := rfl
@[simp] theorem State.setCarry_b (v : Bool) : (s.setCarry v).b = s.b := rfl
@[simp] theorem State.setCarry_c (v : Bool) : (s.setCarry v).c = s.c := rfl
@[simp] theorem State.setCarry_d (v : Bool) : (s.setCarry v).d = s.d := rfl
@[simp] theorem State.setCarry_e (v : Bool) : (s.setCarry v).e = s.e := rfl
@[simp] theorem State.setCarry_h (v : Bool) : (s.setCarry v).h = s.h := rfl
@[simp] theorem State.setCarry_l (v : Bool) : (s.setCarry v).l = s.l := rfl
@[simp] theorem State.setCarry_sp (v : Bool) : (s.setCarry v).sp = s.sp := rfl
@[simp] theorem State.setCarry_pc (v : Bool) : (s.setCarry v).pc = s.pc := rfl
@[simp] theorem State.setCarry_flags (v : Bool) : (s.setCarry v).flags = { s.flags with carry := v } := rfl
@[simp] theorem State.setCarry_inte (v : Bool) : (s.setCarry v).inte = s.inte := rfl
@[simp] theorem State.setCarry_halted (v : Bool) : (s.setCarry v).halted = s.halted := rfl
@[simp] theorem State.setCarry_eiInhibit (v : Bool) : (s.setCarry v).eiInhibit = s.eiInhibit := rfl
@[simp] theorem State.setCarry_ir (v : Bool) : (s.setCarry v).ir = s.ir := rfl
@[simp] theorem State.setCarry_hlda (v : Bool) : (s.setCarry v).hlda = s.hlda := rfl
@[simp] theorem State.setCarry_mem (v : Bool) : (s.setCarry v).mem = s.mem := rfl
@[simp] theorem State.setCarry_platform (v : Bool) : (s.setCarry v).platform = s.platform := rfl
@[simp] theorem State.setCarry_pins (v : Bool) : (s.setCarry v).pins = s.pins := rfl
@[simp] theorem State.setCarry_slots (v : Bool) : (s.setCarry v).slots = s.slots := rfl
@[simp] theorem State.setCarry_answers (v : Bool) : (s.setCarry v).answers = s.answers := rfl
@[simp] theorem State.setCarry_draws (v : Bool) : (s.setCarry v).draws = s.draws := rfl
@[simp] theorem State.setCarry_abandoned (v : Bool) : (s.setCarry v).abandoned = s.abandoned := rfl
@[simp] theorem State.setCarry_bus (v : Bool) : (s.setCarry v).bus = s.bus := rfl
@[simp] theorem State.setCarry_waitStates (v : Bool) : (s.setCarry v).waitStates = s.waitStates := rfl
@[simp] theorem State.setCarry_clocks (v : Bool) : (s.setCarry v).clocks = s.clocks := rfl
@[simp] theorem State.setCarry_peek (v : Bool) (q : Word) : (s.setCarry v).peek q = s.peek q := rfl
@[simp] theorem State.setCarry_kindAt (v : Bool) (q : Word) : (s.setCarry v).kindAt q = s.kindAt q := rfl
@[simp] theorem State.setCarry_bc (v : Bool) : (s.setCarry v).bc = s.bc := rfl
@[simp] theorem State.setCarry_de (v : Bool) : (s.setCarry v).de = s.de := rfl
@[simp] theorem State.setCarry_hl (v : Bool) : (s.setCarry v).hl = s.hl := rfl
@[simp] theorem State.setCarry_getReg (v : Bool) (r : Reg) : (s.setCarry v).getReg r = s.getReg r := by cases r <;> rfl

/-! ### `setPsw` -/

@[simp] theorem State.setPsw_a (v : Word) : (s.setPsw v).a = hiByte v := rfl
@[simp] theorem State.setPsw_b (v : Word) : (s.setPsw v).b = s.b := rfl
@[simp] theorem State.setPsw_c (v : Word) : (s.setPsw v).c = s.c := rfl
@[simp] theorem State.setPsw_d (v : Word) : (s.setPsw v).d = s.d := rfl
@[simp] theorem State.setPsw_e (v : Word) : (s.setPsw v).e = s.e := rfl
@[simp] theorem State.setPsw_h (v : Word) : (s.setPsw v).h = s.h := rfl
@[simp] theorem State.setPsw_l (v : Word) : (s.setPsw v).l = s.l := rfl
@[simp] theorem State.setPsw_sp (v : Word) : (s.setPsw v).sp = s.sp := rfl
@[simp] theorem State.setPsw_pc (v : Word) : (s.setPsw v).pc = s.pc := rfl
@[simp] theorem State.setPsw_flags (v : Word) : (s.setPsw v).flags = Flags.ofByte (loByte v) := rfl
@[simp] theorem State.setPsw_inte (v : Word) : (s.setPsw v).inte = s.inte := rfl
@[simp] theorem State.setPsw_halted (v : Word) : (s.setPsw v).halted = s.halted := rfl
@[simp] theorem State.setPsw_eiInhibit (v : Word) : (s.setPsw v).eiInhibit = s.eiInhibit := rfl
@[simp] theorem State.setPsw_ir (v : Word) : (s.setPsw v).ir = s.ir := rfl
@[simp] theorem State.setPsw_hlda (v : Word) : (s.setPsw v).hlda = s.hlda := rfl
@[simp] theorem State.setPsw_mem (v : Word) : (s.setPsw v).mem = s.mem := rfl
@[simp] theorem State.setPsw_platform (v : Word) : (s.setPsw v).platform = s.platform := rfl
@[simp] theorem State.setPsw_pins (v : Word) : (s.setPsw v).pins = s.pins := rfl
@[simp] theorem State.setPsw_slots (v : Word) : (s.setPsw v).slots = s.slots := rfl
@[simp] theorem State.setPsw_answers (v : Word) : (s.setPsw v).answers = s.answers := rfl
@[simp] theorem State.setPsw_draws (v : Word) : (s.setPsw v).draws = s.draws := rfl
@[simp] theorem State.setPsw_abandoned (v : Word) : (s.setPsw v).abandoned = s.abandoned := rfl
@[simp] theorem State.setPsw_bus (v : Word) : (s.setPsw v).bus = s.bus := rfl
@[simp] theorem State.setPsw_waitStates (v : Word) : (s.setPsw v).waitStates = s.waitStates := rfl
@[simp] theorem State.setPsw_clocks (v : Word) : (s.setPsw v).clocks = s.clocks := rfl
@[simp] theorem State.setPsw_peek (v : Word) (q : Word) : (s.setPsw v).peek q = s.peek q := rfl
@[simp] theorem State.setPsw_kindAt (v : Word) (q : Word) : (s.setPsw v).kindAt q = s.kindAt q := rfl
@[simp] theorem State.setPsw_bc (v : Word) : (s.setPsw v).bc = s.bc := rfl
@[simp] theorem State.setPsw_de (v : Word) : (s.setPsw v).de = s.de := rfl
@[simp] theorem State.setPsw_hl (v : Word) : (s.setPsw v).hl = s.hl := rfl

/-! ### `tick` -/

@[simp] theorem State.tick_a (n : Nat) : (s.tick n).a = s.a := rfl
@[simp] theorem State.tick_b (n : Nat) : (s.tick n).b = s.b := rfl
@[simp] theorem State.tick_c (n : Nat) : (s.tick n).c = s.c := rfl
@[simp] theorem State.tick_d (n : Nat) : (s.tick n).d = s.d := rfl
@[simp] theorem State.tick_e (n : Nat) : (s.tick n).e = s.e := rfl
@[simp] theorem State.tick_h (n : Nat) : (s.tick n).h = s.h := rfl
@[simp] theorem State.tick_l (n : Nat) : (s.tick n).l = s.l := rfl
@[simp] theorem State.tick_sp (n : Nat) : (s.tick n).sp = s.sp := rfl
@[simp] theorem State.tick_pc (n : Nat) : (s.tick n).pc = s.pc := rfl
@[simp] theorem State.tick_flags (n : Nat) : (s.tick n).flags = s.flags := rfl
@[simp] theorem State.tick_inte (n : Nat) : (s.tick n).inte = s.inte := rfl
@[simp] theorem State.tick_halted (n : Nat) : (s.tick n).halted = s.halted := rfl
@[simp] theorem State.tick_eiInhibit (n : Nat) : (s.tick n).eiInhibit = s.eiInhibit := rfl
@[simp] theorem State.tick_ir (n : Nat) : (s.tick n).ir = s.ir := rfl
@[simp] theorem State.tick_hlda (n : Nat) : (s.tick n).hlda = s.hlda := rfl
@[simp] theorem State.tick_mem (n : Nat) : (s.tick n).mem = s.mem := rfl
@[simp] theorem State.tick_platform (n : Nat) : (s.tick n).platform = s.platform := rfl
@[simp] theorem State.tick_pins (n : Nat) : (s.tick n).pins = s.pins := rfl
@[simp] theorem State.tick_slots (n : Nat) : (s.tick n).slots = s.slots := rfl
@[simp] theorem State.tick_answers (n : Nat) : (s.tick n).answers = s.answers := rfl
@[simp] theorem State.tick_draws (n : Nat) : (s.tick n).draws = s.draws := rfl
@[simp] theorem State.tick_abandoned (n : Nat) : (s.tick n).abandoned = s.abandoned := rfl
@[simp] theorem State.tick_bus (n : Nat) : (s.tick n).bus = s.bus := rfl
@[simp] theorem State.tick_waitStates (n : Nat) : (s.tick n).waitStates = s.waitStates := rfl
@[simp] theorem State.tick_clocks (n : Nat) : (s.tick n).clocks = s.clocks + n := rfl
@[simp] theorem State.tick_peek (n : Nat) (q : Word) : (s.tick n).peek q = s.peek q := rfl
@[simp] theorem State.tick_kindAt (n : Nat) (q : Word) : (s.tick n).kindAt q = s.kindAt q := rfl
@[simp] theorem State.tick_bc (n : Nat) : (s.tick n).bc = s.bc := rfl
@[simp] theorem State.tick_de (n : Nat) : (s.tick n).de = s.de := rfl
@[simp] theorem State.tick_hl (n : Nat) : (s.tick n).hl = s.hl := rfl
@[simp] theorem State.tick_getReg (n : Nat) (r : Reg) : (s.tick n).getReg r = s.getReg r := by cases r <;> rfl

/-! ### `enterWait` -/

@[simp] theorem State.enterWait_a (w : Option Nat) : (s.enterWait w).a = s.a := rfl
@[simp] theorem State.enterWait_b (w : Option Nat) : (s.enterWait w).b = s.b := rfl
@[simp] theorem State.enterWait_c (w : Option Nat) : (s.enterWait w).c = s.c := rfl
@[simp] theorem State.enterWait_d (w : Option Nat) : (s.enterWait w).d = s.d := rfl
@[simp] theorem State.enterWait_e (w : Option Nat) : (s.enterWait w).e = s.e := rfl
@[simp] theorem State.enterWait_h (w : Option Nat) : (s.enterWait w).h = s.h := rfl
@[simp] theorem State.enterWait_l (w : Option Nat) : (s.enterWait w).l = s.l := rfl
@[simp] theorem State.enterWait_sp (w : Option Nat) : (s.enterWait w).sp = s.sp := rfl
@[simp] theorem State.enterWait_pc (w : Option Nat) : (s.enterWait w).pc = s.pc := rfl
@[simp] theorem State.enterWait_flags (w : Option Nat) : (s.enterWait w).flags = s.flags := rfl
@[simp] theorem State.enterWait_inte (w : Option Nat) : (s.enterWait w).inte = s.inte := rfl
@[simp] theorem State.enterWait_halted (w : Option Nat) : (s.enterWait w).halted = s.halted := rfl
@[simp] theorem State.enterWait_eiInhibit (w : Option Nat) : (s.enterWait w).eiInhibit = s.eiInhibit := rfl
@[simp] theorem State.enterWait_ir (w : Option Nat) : (s.enterWait w).ir = s.ir := rfl
@[simp] theorem State.enterWait_hlda (w : Option Nat) : (s.enterWait w).hlda = s.hlda := rfl
@[simp] theorem State.enterWait_mem (w : Option Nat) : (s.enterWait w).mem = s.mem := rfl
@[simp] theorem State.enterWait_platform (w : Option Nat) : (s.enterWait w).platform = s.platform := rfl
@[simp] theorem State.enterWait_pins (w : Option Nat) : (s.enterWait w).pins = s.pins := rfl
@[simp] theorem State.enterWait_slots (w : Option Nat) : (s.enterWait w).slots = s.slots := rfl
@[simp] theorem State.enterWait_answers (w : Option Nat) : (s.enterWait w).answers = s.answers := rfl
@[simp] theorem State.enterWait_draws (w : Option Nat) : (s.enterWait w).draws = s.draws := rfl
@[simp] theorem State.enterWait_abandoned (w : Option Nat) : (s.enterWait w).abandoned = s.abandoned := rfl
@[simp] theorem State.enterWait_bus (w : Option Nat) : (s.enterWait w).bus = s.bus := rfl
@[simp] theorem State.enterWait_waitStates (w : Option Nat) : (s.enterWait w).waitStates = s.waitStates ++ [{ cycle := s.bus.length, clocks := w }] := rfl
@[simp] theorem State.enterWait_clocks (w : Option Nat) : (s.enterWait w).clocks = s.clocks := rfl
@[simp] theorem State.enterWait_peek (w : Option Nat) (q : Word) : (s.enterWait w).peek q = s.peek q := rfl
@[simp] theorem State.enterWait_kindAt (w : Option Nat) (q : Word) : (s.enterWait w).kindAt q = s.kindAt q := rfl
@[simp] theorem State.enterWait_bc (w : Option Nat) : (s.enterWait w).bc = s.bc := rfl
@[simp] theorem State.enterWait_de (w : Option Nat) : (s.enterWait w).de = s.de := rfl
@[simp] theorem State.enterWait_hl (w : Option Nat) : (s.enterWait w).hl = s.hl := rfl
@[simp] theorem State.enterWait_getReg (w : Option Nat) (r : Reg) : (s.enterWait w).getReg r = s.getReg r := by cases r <;> rfl

/-! ### `logCycle` -/

@[simp] theorem State.logCycle_a (x : BusCycle) : (s.logCycle x).a = s.a := rfl
@[simp] theorem State.logCycle_b (x : BusCycle) : (s.logCycle x).b = s.b := rfl
@[simp] theorem State.logCycle_c (x : BusCycle) : (s.logCycle x).c = s.c := rfl
@[simp] theorem State.logCycle_d (x : BusCycle) : (s.logCycle x).d = s.d := rfl
@[simp] theorem State.logCycle_e (x : BusCycle) : (s.logCycle x).e = s.e := rfl
@[simp] theorem State.logCycle_h (x : BusCycle) : (s.logCycle x).h = s.h := rfl
@[simp] theorem State.logCycle_l (x : BusCycle) : (s.logCycle x).l = s.l := rfl
@[simp] theorem State.logCycle_sp (x : BusCycle) : (s.logCycle x).sp = s.sp := rfl
@[simp] theorem State.logCycle_pc (x : BusCycle) : (s.logCycle x).pc = s.pc := rfl
@[simp] theorem State.logCycle_flags (x : BusCycle) : (s.logCycle x).flags = s.flags := rfl
@[simp] theorem State.logCycle_inte (x : BusCycle) : (s.logCycle x).inte = s.inte := rfl
@[simp] theorem State.logCycle_halted (x : BusCycle) : (s.logCycle x).halted = s.halted := rfl
@[simp] theorem State.logCycle_eiInhibit (x : BusCycle) : (s.logCycle x).eiInhibit = s.eiInhibit := rfl
@[simp] theorem State.logCycle_ir (x : BusCycle) : (s.logCycle x).ir = s.ir := rfl
@[simp] theorem State.logCycle_hlda (x : BusCycle) : (s.logCycle x).hlda = s.hlda := rfl
@[simp] theorem State.logCycle_mem (x : BusCycle) : (s.logCycle x).mem = s.mem := rfl
@[simp] theorem State.logCycle_platform (x : BusCycle) : (s.logCycle x).platform = s.platform := rfl
@[simp] theorem State.logCycle_pins (x : BusCycle) : (s.logCycle x).pins = s.pins := rfl
@[simp] theorem State.logCycle_slots (x : BusCycle) : (s.logCycle x).slots = s.slots := rfl
@[simp] theorem State.logCycle_answers (x : BusCycle) : (s.logCycle x).answers = s.answers := rfl
@[simp] theorem State.logCycle_draws (x : BusCycle) : (s.logCycle x).draws = s.draws := rfl
@[simp] theorem State.logCycle_abandoned (x : BusCycle) : (s.logCycle x).abandoned = s.abandoned := rfl
@[simp] theorem State.logCycle_bus (x : BusCycle) : (s.logCycle x).bus = s.bus ++ [x] := rfl
@[simp] theorem State.logCycle_waitStates (x : BusCycle) : (s.logCycle x).waitStates = s.waitStates := rfl
@[simp] theorem State.logCycle_clocks (x : BusCycle) : (s.logCycle x).clocks = s.clocks := rfl
@[simp] theorem State.logCycle_peek (x : BusCycle) (q : Word) : (s.logCycle x).peek q = s.peek q := rfl
@[simp] theorem State.logCycle_kindAt (x : BusCycle) (q : Word) : (s.logCycle x).kindAt q = s.kindAt q := rfl
@[simp] theorem State.logCycle_bc (x : BusCycle) : (s.logCycle x).bc = s.bc := rfl
@[simp] theorem State.logCycle_de (x : BusCycle) : (s.logCycle x).de = s.de := rfl
@[simp] theorem State.logCycle_hl (x : BusCycle) : (s.logCycle x).hl = s.hl := rfl
@[simp] theorem State.logCycle_getReg (x : BusCycle) (r : Reg) : (s.logCycle x).getReg r = s.getReg r := by cases r <;> rfl

/-! ### `setReg` -/

@[simp] theorem State.setReg_sp (r : Reg) (v : Byte) : (s.setReg r v).sp = s.sp := by cases r <;> rfl
@[simp] theorem State.setReg_pc (r : Reg) (v : Byte) : (s.setReg r v).pc = s.pc := by cases r <;> rfl
@[simp] theorem State.setReg_flags (r : Reg) (v : Byte) : (s.setReg r v).flags = s.flags := by cases r <;> rfl
@[simp] theorem State.setReg_inte (r : Reg) (v : Byte) : (s.setReg r v).inte = s.inte := by cases r <;> rfl
@[simp] theorem State.setReg_halted (r : Reg) (v : Byte) : (s.setReg r v).halted = s.halted := by cases r <;> rfl
@[simp] theorem State.setReg_eiInhibit (r : Reg) (v : Byte) : (s.setReg r v).eiInhibit = s.eiInhibit := by cases r <;> rfl
@[simp] theorem State.setReg_ir (r : Reg) (v : Byte) : (s.setReg r v).ir = s.ir := by cases r <;> rfl
@[simp] theorem State.setReg_hlda (r : Reg) (v : Byte) : (s.setReg r v).hlda = s.hlda := by cases r <;> rfl
@[simp] theorem State.setReg_mem (r : Reg) (v : Byte) : (s.setReg r v).mem = s.mem := by cases r <;> rfl
@[simp] theorem State.setReg_platform (r : Reg) (v : Byte) : (s.setReg r v).platform = s.platform := by cases r <;> rfl
@[simp] theorem State.setReg_pins (r : Reg) (v : Byte) : (s.setReg r v).pins = s.pins := by cases r <;> rfl
@[simp] theorem State.setReg_slots (r : Reg) (v : Byte) : (s.setReg r v).slots = s.slots := by cases r <;> rfl
@[simp] theorem State.setReg_answers (r : Reg) (v : Byte) : (s.setReg r v).answers = s.answers := by cases r <;> rfl
@[simp] theorem State.setReg_draws (r : Reg) (v : Byte) : (s.setReg r v).draws = s.draws := by cases r <;> rfl
@[simp] theorem State.setReg_abandoned (r : Reg) (v : Byte) : (s.setReg r v).abandoned = s.abandoned := by cases r <;> rfl
@[simp] theorem State.setReg_bus (r : Reg) (v : Byte) : (s.setReg r v).bus = s.bus := by cases r <;> rfl
@[simp] theorem State.setReg_waitStates (r : Reg) (v : Byte) : (s.setReg r v).waitStates = s.waitStates := by cases r <;> rfl
@[simp] theorem State.setReg_clocks (r : Reg) (v : Byte) : (s.setReg r v).clocks = s.clocks := by cases r <;> rfl
@[simp] theorem State.setReg_peek (r : Reg) (v : Byte) (x : Word) : (s.setReg r v).peek x = s.peek x := by
  cases r <;> rfl
@[simp] theorem State.setReg_kindAt (r : Reg) (v : Byte) (x : Word) : (s.setReg r v).kindAt x = s.kindAt x := by
  cases r <;> rfl
/-! ### The registers by code after an update -/

@[simp] theorem State.getReg_setReg (r q : Reg) (v : Byte) :
    (s.setReg r v).getReg q = if q = r then v else s.getReg q := by
  cases r <;> cases q <;> rfl

theorem State.setA_eq_setReg (v : Byte) : s.setA v = s.setReg .a v := rfl

theorem State.setBc_eq_setReg (v : Word) : s.setBc v = (s.setReg .b (hiByte v)).setReg .c (loByte v) := rfl

theorem State.setDe_eq_setReg (v : Word) : s.setDe v = (s.setReg .d (hiByte v)).setReg .e (loByte v) := rfl

theorem State.setHl_eq_setReg (v : Word) : s.setHl v = (s.setReg .h (hiByte v)).setReg .l (loByte v) := rfl

@[simp] theorem State.leaveHold_hlda : s.leaveHold.hlda = false := rfl

@[simp] theorem State.leaveHold_mem : s.leaveHold.mem = s.mem := rfl

@[simp] theorem State.leaveHold_slots : s.leaveHold.slots = s.slots := rfl

@[simp] theorem State.leaveHold_abandoned : s.leaveHold.abandoned = s.abandoned := rfl

@[simp] theorem State.leaveHold_platform : s.leaveHold.platform = s.platform := rfl

@[simp] theorem State.leaveHold_pins : s.leaveHold.pins = s.pins := rfl

end Sys2Proof.Machine
end

