-- ==== Sys2Proof/Laws/Cpu.lean ====
section
/-! SUPPORT. The processor's state (`cpu`) and what lies outside it (`outside`) after each update and each accumulator
operation, as functions of `cpu` and `outside` before. -/

namespace Sys2Proof.Machine

variable (s : State)

/-! ### The parts of `cpu` -/

@[simp] theorem State.cpu_regs : s.cpu.regs = s.getReg := rfl
@[simp] theorem State.cpu_sp : s.cpu.sp = s.sp := rfl
@[simp] theorem State.cpu_pc : s.cpu.pc = s.pc := rfl
@[simp] theorem State.cpu_flags : s.cpu.flags = s.flags := rfl
@[simp] theorem State.cpu_inte : s.cpu.inte = s.inte := rfl
@[simp] theorem State.cpu_halted : s.cpu.halted = s.halted := rfl
@[simp] theorem State.cpu_eiInhibit : s.cpu.eiInhibit = s.eiInhibit := rfl
@[simp] theorem State.cpu_ir : s.cpu.ir = s.ir := rfl
@[simp] theorem State.getReg_a : s.getReg .a = s.a := rfl
@[simp] theorem State.getReg_b : s.getReg .b = s.b := rfl
@[simp] theorem State.getReg_c : s.getReg .c = s.c := rfl
@[simp] theorem State.getReg_d : s.getReg .d = s.d := rfl
@[simp] theorem State.getReg_e : s.getReg .e = s.e := rfl
@[simp] theorem State.getReg_h : s.getReg .h = s.h := rfl
@[simp] theorem State.getReg_l : s.getReg .l = s.l := rfl

/-- Equal processors have equal registers, flags and so on. -/
theorem State.of_cpu_eq {s t : State} (h : t.cpu = s.cpu) :
    (∀ r, t.getReg r = s.getReg r) ∧ t.sp = s.sp ∧ t.pc = s.pc ∧ t.flags = s.flags ∧ t.inte = s.inte ∧
      t.halted = s.halted ∧ t.eiInhibit = s.eiInhibit ∧ t.ir = s.ir :=
  ⟨fun r => congrArg (fun k => Cpu.regs k r) h, congrArg Cpu.sp h, congrArg Cpu.pc h, congrArg Cpu.flags h,
    congrArg Cpu.inte h, congrArg Cpu.halted h, congrArg Cpu.eiInhibit h, congrArg Cpu.ir h⟩

/-- Two processors with the same registers by name and the same rest are equal. -/
theorem Cpu.eq_of {x y : Cpu} (hr : ∀ r, x.regs r = y.regs r)
    (h : (x.sp, x.pc, x.flags, x.inte, x.halted, x.eiInhibit, x.ir) =
      (y.sp, y.pc, y.flags, y.inte, y.halted, y.eiInhibit, y.ir)) : x = y := by
  obtain ⟨xr, _⟩ := x
  obtain ⟨yr, _⟩ := y
  obtain rfl : xr = yr := funext hr
  simp only [Prod.mk.injEq] at h
  obtain ⟨rfl, rfl, rfl, rfl, rfl, rfl, rfl⟩ := h
  rfl

/-! ### `cpu` after an update -/

@[simp] theorem State.setReg_cpu (r : Reg) (v : Byte) :
    (s.setReg r v).cpu = { s.cpu with regs := Function.update s.getReg r v } := by
  refine Cpu.eq_of (fun q => ?_) (by cases r <;> rfl)
  simp [Function.update_apply]

@[simp] theorem State.setA_cpu (v : Byte) :
    (s.setA v).cpu = { s.cpu with regs := Function.update s.getReg .a v } := by
  refine Cpu.eq_of (fun q => ?_) rfl
  cases q <;> rfl

@[simp] theorem State.setBc_cpu (v : Word) :
    (s.setBc v).cpu = { s.cpu with regs := Function.update (Function.update s.getReg .b (hiByte v)) .c (loByte v) } := by
  refine Cpu.eq_of (fun q => ?_) rfl
  cases q <;> rfl

@[simp] theorem State.setDe_cpu (v : Word) :
    (s.setDe v).cpu = { s.cpu with regs := Function.update (Function.update s.getReg .d (hiByte v)) .e (loByte v) } := by
  refine Cpu.eq_of (fun q => ?_) rfl
  cases q <;> rfl

@[simp] theorem State.setHl_cpu (v : Word) :
    (s.setHl v).cpu = { s.cpu with regs := Function.update (Function.update s.getReg .h (hiByte v)) .l (loByte v) } := by
  refine Cpu.eq_of (fun q => ?_) rfl
  cases q <;> rfl

@[simp] theorem State.setSp_cpu (v : Word) : (s.setSp v).cpu = { s.cpu with sp := v } := by
  refine Cpu.eq_of (fun q => ?_) rfl
  cases q <;> rfl

@[simp] theorem State.setPc_cpu (v : Word) : (s.setPc v).cpu = { s.cpu with pc := v } := by
  refine Cpu.eq_of (fun q => ?_) rfl
  cases q <;> rfl

@[simp] theorem State.setFlags_cpu (f : Flags) : (s.setFlags f).cpu = { s.cpu with flags := f } := by
  refine Cpu.eq_of (fun q => ?_) rfl
  cases q <;> rfl

@[simp] theorem State.setCarry_cpu (v : Bool) : (s.setCarry v).cpu = { s.cpu with flags := { s.cpu.flags with carry := v } } := by
  refine Cpu.eq_of (fun q => ?_) rfl
  cases q <;> rfl

@[simp] theorem State.setPsw_cpu (v : Word) :
    (s.setPsw v).cpu = { s.cpu with regs := Function.update s.getReg .a (hiByte v), flags := Flags.ofByte (loByte v) } := by
  refine Cpu.eq_of (fun q => ?_) rfl
  cases q <;> rfl

@[simp] theorem State.tick_cpu (n : Nat) : (s.tick n).cpu = s.cpu := by
  refine Cpu.eq_of (fun q => ?_) rfl
  cases q <;> rfl

@[simp] theorem State.logCycle_cpu (c : BusCycle) : (s.logCycle c).cpu = s.cpu := by
  refine Cpu.eq_of (fun q => ?_) rfl
  cases q <;> rfl

/-! ### `outside` after an update -/

@[simp] theorem State.logCycle_outside (c : BusCycle) :
    (s.logCycle c).outside = { s.outside with bus := s.bus ++ [c] } := rfl

@[simp] theorem State.setReg_outside (r : Reg) (v : Byte) : (s.setReg r v).outside = s.outside := by cases r <;> rfl
@[simp] theorem State.setA_outside (v : Byte) : (s.setA v).outside = s.outside := rfl
@[simp] theorem State.setBc_outside (v : Word) : (s.setBc v).outside = s.outside := rfl
@[simp] theorem State.setDe_outside (v : Word) : (s.setDe v).outside = s.outside := rfl
@[simp] theorem State.setHl_outside (v : Word) : (s.setHl v).outside = s.outside := rfl
@[simp] theorem State.setSp_outside (v : Word) : (s.setSp v).outside = s.outside := rfl
@[simp] theorem State.setPc_outside (v : Word) : (s.setPc v).outside = s.outside := rfl
@[simp] theorem State.setFlags_outside (f : Flags) : (s.setFlags f).outside = s.outside := rfl
@[simp] theorem State.setCarry_outside (v : Bool) : (s.setCarry v).outside = s.outside := rfl
@[simp] theorem State.setPsw_outside (v : Word) : (s.setPsw v).outside = s.outside := rfl
@[simp] theorem State.tick_outside (n : Nat) : (s.tick n).outside = s.outside := rfl

/-! ### The accumulator operations -/

/-- Registers and flags both from the accumulator operation. -/
theorem State.setSum_cpu (r : Sum8) :
    (s.setSum r).cpu =
      { s.cpu with regs := Function.update s.getReg .a r.res, flags := Flags.ofResult r.res r.carry r.ac } := by
  refine Cpu.eq_of (fun q => ?_) rfl
  cases q <;> rfl

theorem State.setLogic_cpu (res : Byte) (ac : Bool) :
    (s.setLogic res ac).cpu =
      { s.cpu with regs := Function.update s.getReg .a res, flags := Flags.ofResult res false ac } := by
  refine Cpu.eq_of (fun q => ?_) rfl
  cases q <;> rfl

theorem State.setRotate_cpu (res : Byte) (carry : Bool) :
    (s.setRotate res carry).cpu =
      { s.cpu with regs := Function.update s.getReg .a res, flags := { s.flags with carry := carry } } := by
  refine Cpu.eq_of (fun q => ?_) rfl
  cases q <;> rfl

@[simp] theorem State.setSum_outside (r : Sum8) : (s.setSum r).outside = s.outside := rfl
@[simp] theorem State.setLogic_outside (res : Byte) (ac : Bool) : (s.setLogic res ac).outside = s.outside := rfl
@[simp] theorem State.setRotate_outside (res : Byte) (carry : Bool) : (s.setRotate res carry).outside = s.outside := rfl

/-- ADD and ADC, in numbers. -/
theorem State.addA_cpu (v : Byte) (cin : Bool) :
    (s.addA v cin).cpu =
      { s.cpu with
        regs := Function.update s.getReg .a (BitVec.ofNat 8 (s.a.toNat + v.toNat + cin.toNat))
        flags := resultFlags ((s.a.toNat + v.toNat + cin.toNat) % 256)
          (decide (256 ≤ s.a.toNat + v.toNat + cin.toNat))
          (decide (16 ≤ s.a.toNat % 16 + v.toNat % 16 + cin.toNat)) } := by
  rw [State.addA, State.setSum_cpu, ofResult_eq_resultFlags, add8_res, add8_carry, add8_ac, BitVec.toNat_ofNat]

/-- SUB and SBB, in numbers. -/
theorem State.subA_cpu (v : Byte) (bin : Bool) :
    (s.subA v bin).cpu =
      { s.cpu with
        regs := Function.update s.getReg .a (BitVec.ofInt 8 ((s.a.toNat : ℤ) - v.toNat - bin.toNat))
        flags := resultFlags (BitVec.ofInt 8 ((s.a.toNat : ℤ) - v.toNat - bin.toNat)).toNat
          (decide (s.a.toNat < v.toNat + bin.toNat))
          (decide (v.toNat % 16 + bin.toNat ≤ s.a.toNat % 16)) } := by
  rw [State.subA, State.setSum_cpu, ofResult_eq_resultFlags, sub8_res, sub8_carry, sub8_ac]

/-- CMP writes the flags of SUB and no register. -/
theorem State.cmpA_cpu (v : Byte) :
    (s.cmpA v).cpu = { s.cpu with flags := (s.subA v false).flags } := by
  refine Cpu.eq_of (fun q => ?_) rfl
  cases q <;> rfl

/-- DAD, in numbers. -/
theorem State.dad_cpu (v : Word) :
    (s.dad v).cpu =
      { s.cpu with
        regs := Function.update (Function.update s.getReg .h (hiByte (s.hl + v))) .l (loByte (s.hl + v))
        flags := { s.flags with carry := decide (65536 ≤ s.hl.toNat + v.toNat) } } := by
  simp only [State.dad, add16_res, add16_carry]
  refine Cpu.eq_of (fun q => ?_) rfl
  cases q <;> rfl

@[simp] theorem State.addA_outside (v : Byte) (cin : Bool) : (s.addA v cin).outside = s.outside := rfl
@[simp] theorem State.subA_outside (v : Byte) (bin : Bool) : (s.subA v bin).outside = s.outside := rfl
@[simp] theorem State.cmpA_outside (v : Byte) : (s.cmpA v).outside = s.outside := rfl
@[simp] theorem State.dad_outside (v : Word) : (s.dad v).outside = s.outside := rfl
@[simp] theorem State.decimalAdjust_outside : s.decimalAdjust.outside = s.outside := rfl

/-! ### An operation of the accumulator depends on the processor and the platform only -/

theorem State.addA_congr {s t : State} (h : t.cpu = s.cpu) (v : Byte) (cin : Bool) :
    (t.addA v cin).cpu = (s.addA v cin).cpu := by
  have ha : t.a = s.a := (State.of_cpu_eq h).1 .a
  rw [State.addA_cpu, State.addA_cpu, h, ha, funext (State.of_cpu_eq h).1]

theorem State.subA_congr {s t : State} (h : t.cpu = s.cpu) (v : Byte) (bin : Bool) :
    (t.subA v bin).cpu = (s.subA v bin).cpu := by
  have ha : t.a = s.a := (State.of_cpu_eq h).1 .a
  rw [State.subA_cpu, State.subA_cpu, h, ha, funext (State.of_cpu_eq h).1]

theorem State.cmpA_congr {s t : State} (h : t.cpu = s.cpu) (v : Byte) : (t.cmpA v).cpu = (s.cmpA v).cpu := by
  have hf : (t.subA v false).flags = (s.subA v false).flags := (State.of_cpu_eq (State.subA_congr h v false)).2.2.2.1
  rw [State.cmpA_cpu, State.cmpA_cpu, h, hf]

theorem State.setLogic_congr {s t : State} (h : t.cpu = s.cpu) (res : Byte) (ac : Bool) :
    (t.setLogic res ac).cpu = (s.setLogic res ac).cpu := by
  rw [State.setLogic_cpu, State.setLogic_cpu, h, funext (State.of_cpu_eq h).1]

end Sys2Proof.Machine
end

