-- ==== Sys2Proof/Laws/Decode.lean ====
section
/-! SUPPORT. The decoder, said once: what the first byte selects is exactly what the encoder writes with that first byte,
and how the operand bytes are taken. -/

namespace Sys2Proof

/-- What the first byte selects agrees with the encoder, with R87's length, and with the list of unassigned opcodes. -/
def Form.agreesWith (op : Byte) : Form → Prop
  | .one i => encode i = [op] ∧ opcodeLength op = 1 ∧ op ∉ unassignedOpcodes
  | .two f => (∀ data, encode (f data) = [op, data]) ∧ opcodeLength op = 2 ∧ op ∉ unassignedOpcodes
  | .three f => (∀ w, encode (f w) = encode3 op w) ∧ opcodeLength op = 3 ∧ op ∉ unassignedOpcodes
  | .unassigned => op ∈ unassignedOpcodes

set_option maxRecDepth 4000 in
/-- The map of 30_encoding.md R90, all 256 values of byte 1. -/
theorem decodeOpcode_agreesWith (op : Byte) : (decodeOpcode op).agreesWith op := by
  have every : ∀ n < 256, (decodeOpcode (BitVec.ofNat 8 n)).agreesWith (BitVec.ofNat 8 n) := by
    intro n hn
    interval_cases n <;>
      first
        | exact ⟨rfl, rfl, by decide⟩
        | exact ⟨fun _ => rfl, rfl, by decide⟩
        | exact show _ ∈ unassignedOpcodes by decide
  simpa using every op.toNat op.isLt

/-! ### The operand bytes -/

theorem decode_one {op : Byte} {i : Instr} (h : decodeOpcode op = .one i) (rest : List Byte) :
    decode (op :: rest) = .ok (i, rest) := by
  simp only [decode, h]

theorem decode_two {op : Byte} {f : Byte → Instr} (h : decodeOpcode op = .two f) (data : Byte) (rest : List Byte) :
    decode (op :: data :: rest) = .ok (f data, rest) := by
  simp only [decode, h]

theorem decode_three {op : Byte} {f : Word → Instr} (h : decodeOpcode op = .three f) (lo hi : Byte)
    (rest : List Byte) : decode (op :: lo :: hi :: rest) = .ok (f (mkWord hi lo), rest) := by
  simp only [decode, h]

theorem decode_unassigned {op : Byte} (h : decodeOpcode op = .unassigned) (rest : List Byte) :
    decode (op :: rest) = .error (.unassignedOpcode op) := by
  simp only [decode, h]

/-- What a decoded byte string is: an opcode of one of the three formats with its operand bytes. -/
theorem decode_ok {bytes : List Byte} {i : Instr} {rest : List Byte} (h : decode bytes = .ok (i, rest)) :
    (∃ op, decodeOpcode op = .one i ∧ bytes = op :: rest) ∨
      (∃ op f data, decodeOpcode op = .two f ∧ i = f data ∧ bytes = op :: data :: rest) ∨
      ∃ op f lo hi, decodeOpcode op = .three f ∧ i = f (mkWord hi lo) ∧ bytes = op :: lo :: hi :: rest := by
  match bytes with
  | [] => cases h
  | op :: bs =>
    cases hd : decodeOpcode op with
    | one j =>
      rw [decode_one hd] at h
      cases h
      exact .inl ⟨op, hd, rfl⟩
    | two f =>
      match bs with
      | [] => simp only [decode, hd] at h; cases h
      | data :: bs =>
        rw [decode_two hd] at h
        cases h
        exact .inr (.inl ⟨op, f, data, hd, rfl, rfl⟩)
    | three f =>
      match bs with
      | [] | [_] => simp only [decode, hd] at h; cases h
      | lo :: hi :: bs =>
        rw [decode_three hd] at h
        cases h
        exact .inr (.inr ⟨op, f, lo, hi, hd, rfl, rfl⟩)
    | unassigned => rw [decode_unassigned hd] at h; cases h

/-- An assigned opcode is no alias (93_implementation_defined.md U1). -/
theorem aliasOpcode_of_assigned {op : Byte} (h : op ∉ unassignedOpcodes) : aliasOpcode op = op := by
  revert op
  decide

end Sys2Proof
end

