-- ==== Sys2Proof/Laws/Memory.lean ====
section
/-! SUPPORT. Memory: a read after a write to the same address gives the byte written, every other address reads as
before, and every write keeps the canonical form, which `decide` can test. -/

namespace Sys2Proof.Machine

@[simp] theorem Memory.readAt_nil (k : Nat) : Memory.readAt [] k = Config.unlistedByte := rfl

theorem Memory.readAt_cons (a : Nat) (v : Byte) (m : Memory) (k : Nat) :
    Memory.readAt ((a, v) :: m) k = if a = k then v else m.readAt k := rfl

/-- An address below every listed one reads as the unlisted byte. -/
theorem Memory.readAt_of_lt {m : Memory} {k : Nat} (h : ∀ p ∈ m, k < p.1) : m.readAt k = Config.unlistedByte := by
  induction m with
  | nil => rfl
  | cons p m ih =>
    have hp : k < p.1 := h p (by simp)
    rw [Memory.readAt_cons, if_neg (by omega), ih fun q hq => h q (by simp [hq])]

theorem Memory.wf_nil : Memory.wf [] := ⟨List.Pairwise.nil, by simp⟩

theorem Memory.wf_cons {a : Nat} {v : Byte} {m : Memory} :
    Memory.wf ((a, v) :: m) ↔ (∀ p ∈ m, a < p.1) ∧ a < 65536 ∧ v ≠ Config.unlistedByte ∧ m.wf := by
  simp only [Memory.wf, List.pairwise_cons, List.mem_cons, forall_eq_or_imp]
  tauto

/-! ### Read after write -/

theorem Memory.readAt_put_other {k x : Nat} (v : Byte) (m : Memory) (h : x ≠ k) :
    (Memory.put k v m).readAt x = m.readAt x := by
  unfold Memory.put
  split
  · rfl
  · rw [Memory.readAt_cons, if_neg fun e => h e.symm]

theorem Memory.readAt_put_same {k : Nat} (v : Byte) {m : Memory} (h : ∀ p ∈ m, k < p.1) :
    (Memory.put k v m).readAt k = v := by
  unfold Memory.put
  split
  · rename_i e; rw [Memory.readAt_of_lt h, e]
  · simp [Memory.readAt_cons]

theorem Memory.readAt_writeAt_other {k x : Nat} (m : Memory) (v : Byte) (h : x ≠ k) :
    (m.writeAt k v).readAt x = m.readAt x := by
  induction m with
  | nil => exact Memory.readAt_put_other v [] h
  | cons p m ih =>
    obtain ⟨a, w⟩ := p
    unfold Memory.writeAt
    split
    · subst a; rw [Memory.readAt_put_other v m h, Memory.readAt_cons, if_neg fun e => h e.symm]
    split
    · rw [Memory.readAt_put_other v _ h]
    · rw [Memory.readAt_cons, Memory.readAt_cons, ih]

theorem Memory.readAt_writeAt_same {m : Memory} (k : Nat) (v : Byte) (h : m.wf) : (m.writeAt k v).readAt k = v := by
  induction m with
  | nil => exact Memory.readAt_put_same v (by simp)
  | cons p m ih =>
    obtain ⟨a, w⟩ := p
    obtain ⟨hlt, -, -, hm⟩ := Memory.wf_cons.1 h
    unfold Memory.writeAt
    split
    · subst a; exact Memory.readAt_put_same v hlt
    split
    · rename_i hka
      refine Memory.readAt_put_same v fun q hq => ?_
      rcases List.mem_cons.1 hq with rfl | hq
      · exact hka
      · exact lt_trans hka (hlt q hq)
    · rename_i hne _
      rw [Memory.readAt_cons, if_neg hne, ih hm]

/-! ### The canonical form is kept -/

theorem Memory.wf_put {k : Nat} (v : Byte) {m : Memory} (hk : k < 65536) (h : ∀ p ∈ m, k < p.1) (hm : m.wf) :
    (Memory.put k v m).wf := by
  unfold Memory.put
  split
  · exact hm
  · rename_i hv; exact Memory.wf_cons.2 ⟨h, hk, hv, hm⟩

/-- A write lists no address that was not listed, but its own. -/
theorem Memory.mem_writeAt {m : Memory} {k : Nat} {v : Byte} {p : Host.Cell} (h : p ∈ m.writeAt k v) :
    p ∈ m ∨ p.1 = k := by
  have hput : ∀ r : Memory, p ∈ Memory.put k v r → p ∈ r ∨ p.1 = k := by
    intro r hr
    unfold Memory.put at hr
    split at hr
    · exact .inl hr
    · rcases List.mem_cons.1 hr with rfl | hr
      · exact .inr rfl
      · exact .inl hr
  induction m with
  | nil => exact hput [] h
  | cons q m ih =>
    obtain ⟨a, w⟩ := q
    unfold Memory.writeAt at h
    split at h
    · rcases hput m h with h | h
      · exact .inl (List.mem_cons_of_mem _ h)
      · exact .inr h
    split at h
    · exact hput _ h
    · rcases List.mem_cons.1 h with rfl | h
      · exact .inl (by simp)
      · rcases ih h with h | h
        · exact .inl (List.mem_cons_of_mem _ h)
        · exact .inr h

theorem Memory.wf_writeAt {m : Memory} {k : Nat} (v : Byte) (hk : k < 65536) (h : m.wf) : (m.writeAt k v).wf := by
  induction m with
  | nil => exact Memory.wf_put v hk (by simp) h
  | cons p m ih =>
    obtain ⟨a, w⟩ := p
    obtain ⟨hlt, ha, hw, hm⟩ := Memory.wf_cons.1 h
    unfold Memory.writeAt
    split
    · subst a; exact Memory.wf_put v hk hlt hm
    split
    · rename_i hka
      refine Memory.wf_put v hk (fun q hq => ?_) h
      rcases List.mem_cons.1 hq with rfl | hq
      · exact hka
      · exact lt_trans hka (hlt q hq)
    · refine Memory.wf_cons.2 ⟨fun q hq => ?_, ha, hw, ih hm⟩
      rcases Memory.mem_writeAt hq with hq | hq
      · exact hlt q hq
      · omega

/-! ### At a 16-bit address -/

@[simp] theorem Memory.read_nil (a : Word) : Memory.read [] a = Config.unlistedByte := rfl

theorem Memory.read_write_same {m : Memory} (a : Word) (v : Byte) (h : m.wf) : (m.write a v).read a = v :=
  Memory.readAt_writeAt_same a.toNat v h

theorem Memory.read_write_other {x a : Word} (m : Memory) (v : Byte) (h : x ≠ a) :
    (m.write a v).read x = m.read x :=
  Memory.readAt_writeAt_other m v fun e => h (BitVec.eq_of_toNat_eq e)

/-- A read after a write, in one formula. -/
theorem Memory.read_write {m : Memory} (a : Word) (v : Byte) (x : Word) (h : m.wf) :
    (m.write a v).read x = if x = a then v else m.read x := by
  split
  · subst x; exact Memory.read_write_same a v h
  · rename_i hne; exact Memory.read_write_other m v hne

theorem Memory.wf_write {m : Memory} (a : Word) (v : Byte) (h : m.wf) : (m.write a v).wf :=
  Memory.wf_writeAt v a.isLt h

end Sys2Proof.Machine
end

