-- ==== Sys2Proof/Laws/Ops.lean ====
section
/-! SUPPORT. What a bus cycle, a Hold and the stack operations can do: `BusOnly` says it once for every schedule of Holds,
Waits and Resets; the `_undisturbed` lemmas give the exact state where nothing intervenes. -/

namespace Sys2Proof.Machine

/-- `t` differs from `s` only in what a bus cycle may touch: the processor, the parameters and the lines are the same,
memory keeps its canonical form, and no byte changed outside read/write memory. -/
structure BusOnly (s t : State) : Prop where
  cpu : t.cpu = s.cpu
  platform : t.platform = s.platform
  pins : t.pins = s.pins
  wf : s.mem.wf → t.mem.wf
  readOnly : ∀ x, s.kindAt x ≠ .ram → t.peek x = s.peek x

theorem BusOnly.refl (s : State) : BusOnly s s := ⟨rfl, rfl, rfl, id, fun _ _ => rfl⟩

theorem kindAt_congr {s t : State} (h : t.platform = s.platform) (x : Word) : t.kindAt x = s.kindAt x := by
  rw [State.kindAt, State.kindAt, h]

theorem BusOnly.kindAt {s t : State} (h : BusOnly s t) (x : Word) : t.kindAt x = s.kindAt x :=
  kindAt_congr h.platform x

theorem BusOnly.trans {s t u : State} (h : BusOnly s t) (k : BusOnly t u) : BusOnly s u :=
  ⟨k.cpu.trans h.cpu, k.platform.trans h.platform, k.pins.trans h.pins, k.wf ∘ h.wf, fun x hx =>
    (k.readOnly x (by rwa [h.kindAt])).trans (h.readOnly x hx)⟩

/-- Same memory, processor, parameters and lines. -/
theorem BusOnly.of_eq {s t : State} (hc : t.cpu = s.cpu) (hp : t.platform = s.platform) (hn : t.pins = s.pins)
    (hm : t.mem = s.mem) : BusOnly s t :=
  ⟨hc, hp, hn, fun h => hm ▸ h, fun x _ => by rw [State.peek, State.peek, hm]⟩

/-! ### What answers a read, what a write does -/

theorem draw_busOnly (s : State) : BusOnly s s.draw.2 := .of_eq rfl rfl rfl rfl

theorem deviceAnswer_busOnly (s : State) : BusOnly s s.deviceAnswer.2 := by
  unfold State.deviceAnswer
  split
  · exact .of_eq rfl rfl rfl rfl
  · exact draw_busOnly s

theorem rawRead_busOnly (s : State) (a : Word) : BusOnly s (s.rawRead a).2 := by
  unfold State.rawRead
  split
  · exact .refl s
  · exact .refl s
  · exact deviceAnswer_busOnly s
  · exact draw_busOnly s

theorem rawInput_busOnly (s : State) (p : Byte) : BusOnly s (s.rawInput p).2 := by
  unfold State.rawInput
  split
  · exact draw_busOnly s
  · exact deviceAnswer_busOnly s

theorem supply_busOnly (bytes : List Byte) (s : State) : BusOnly s (supply bytes s).2 := by
  unfold supply
  split
  · exact .refl s
  · exact draw_busOnly s

/-- The byte at `x` after a write to `a` (20_memory.md R58). -/
theorem rawWrite_peek {s : State} (a : Word) (v : Byte) (x : Word) (h : s.mem.wf) :
    (s.rawWrite a v).peek x = s.storedAt a v x (s.peek x) := by
  unfold State.rawWrite State.storedAt
  split <;> rename_i hk
  · simp only [State.peek, Memory.read_write a v x h, hk, and_true]
  all_goals simp [hk]

theorem rawWrite_busOnly (s : State) (a : Word) (v : Byte) : BusOnly s (s.rawWrite a v) := by
  unfold State.rawWrite
  split
  · rename_i hk
    refine ⟨rfl, rfl, rfl, Memory.wf_write a v, fun x hx => Memory.read_write_other s.mem v ?_⟩
    rintro rfl
    exact hx hk
  all_goals exact .refl s

theorem logCycle_busOnly (s : State) (c : BusCycle) : BusOnly s (s.logCycle c) := .of_eq rfl rfl rfl rfl

theorem tick_busOnly (s : State) (n : Nat) : BusOnly s (s.tick n) := .of_eq rfl rfl rfl rfl

/-! ### Hold, Wait, and the boundary before a cycle -/

theorem dmaAccess_busOnly (s : State) (x : DmaAccess) : BusOnly s (s.dmaAccess x) := by
  cases x with
  | read a => exact (rawRead_busOnly s a).trans (logCycle_busOnly _ _)
  | write a v => exact (rawWrite_busOnly s a v).trans (logCycle_busOnly _ _)
  | input p => exact (rawInput_busOnly s p).trans (logCycle_busOnly _ _)
  | output p v => exact logCycle_busOnly _ _

theorem dmaAccesses_busOnly (accesses : List DmaAccess) : ∀ s : State, BusOnly s (accesses.foldl State.dmaAccess s) := by
  induction accesses with
  | nil => exact .refl
  | cons x rest ih => exact fun s => (dmaAccess_busOnly s x).trans (ih _)

theorem leaveHold_busOnly (s : State) : BusOnly s s.leaveHold := .of_eq rfl rfl rfl rfl

/-- A Hold touches no register of the processor (60_exceptions.md R304). -/
theorem enterHold_busOnly (s : State) (g : Hold) : BusOnly s (s.enterHold g) :=
  BusOnly.trans (t := { s with hlda := true }) (.of_eq rfl rfl rfl rfl)
    ((dmaAccesses_busOnly g.accesses _).trans (tick_busOnly _ _))

theorem slotHold_busOnly (s : State) (hold : Option Hold) : BusOnly s (s.slotHold hold) := by
  cases hold with
  | none => exact .refl s
  | some g => exact (enterHold_busOnly s g).trans (leaveHold_busOnly _)

theorem slotWait_busOnly (s : State) (waits : Option Nat) : BusOnly s (s.slotWait waits) := by
  unfold State.slotWait
  split
  · split
    · exact .refl s
    · exact .of_eq rfl rfl rfl rfl
  · exact .of_eq rfl rfl rfl rfl

/-- A Wait that ends changes nothing but the clock count and the record of Wait states (20_memory.md R72): the clocks it
counts are those the record holds. -/
theorem slotWait_ends (s : State) (n : Nat) :
    ∃ ws, s.slotWait (some n) = { s with waitStates := s.waitStates ++ ws, clocks := s.clocks + waitClocks ws } := by
  by_cases h : n = 0
  · exact ⟨[], by simp [State.slotWait, h, waitClocks]⟩
  · exact ⟨[{ cycle := s.bus.length, clocks := some n }], by
      simp [State.slotWait, h, waitClocks, State.enterWait, State.tick]⟩

theorem beginCycle_busOnly (s : State) : BusOnly s s.beginCycle := by
  unfold State.beginCycle
  split
  · exact .refl s
  split
  · exact .refl s
  split
  · exact .of_eq rfl rfl rfl rfl
  · rename_i slot rest _ _
    exact BusOnly.trans (t := { s with slots := rest }) (.of_eq rfl rfl rfl rfl)
      ((slotHold_busOnly _ slot.hold).trans (slotWait_busOnly _ slot.waits))

/-! ### The cycles -/

/-- In an instruction cut short a read cycle takes no place. -/
theorem readCycle_cut {s : State} {k : Abandon} (src : State → Byte × State) (mk : Byte → BusCycle)
    (h : s.beginCycle.abandoned = some k) : s.readCycle src mk = (Config.freeByte s.beginCycle.draws, s.beginCycle) := by
  simp only [State.readCycle, h]

/-- A read cycle that takes place: the boundary, the answer, the record. -/
theorem readCycle_takes {s : State} (src : State → Byte × State) (mk : Byte → BusCycle)
    (h : s.beginCycle.abandoned = none) :
    s.readCycle src mk = ((src s.beginCycle).1, (src s.beginCycle).2.logCycle (mk (src s.beginCycle).1)) := by
  simp only [State.readCycle, h]

/-- In an instruction cut short a write cycle takes no place. -/
theorem writeCycle_cut {s : State} {k : Abandon} (dst : State → State) (c : BusCycle)
    (h : s.beginCycle.abandoned = some k) : s.writeCycle dst c = s.beginCycle := by
  simp only [State.writeCycle, h]

/-- A write cycle that takes place: the boundary, the write, the record. -/
theorem writeCycle_takes {s : State} (dst : State → State) (c : BusCycle) (h : s.beginCycle.abandoned = none) :
    s.writeCycle dst c = (dst s.beginCycle).logCycle c := by
  simp only [State.writeCycle, h]

theorem readCycle_busOnly (s : State) {src : State → Byte × State} (mk : Byte → BusCycle)
    (h : ∀ u, BusOnly u (src u).2) : BusOnly s (s.readCycle src mk).2 := by
  cases hb : s.beginCycle.abandoned with
  | some k => rw [readCycle_cut src mk hb]; exact beginCycle_busOnly s
  | none => rw [readCycle_takes src mk hb]; exact (beginCycle_busOnly s).trans ((h _).trans (logCycle_busOnly _ _))

theorem writeCycle_busOnly (s : State) {dst : State → State} (c : BusCycle) (h : ∀ u, BusOnly u (dst u)) :
    BusOnly s (s.writeCycle dst c) := by
  cases hb : s.beginCycle.abandoned with
  | some k => rw [writeCycle_cut dst c hb]; exact beginCycle_busOnly s
  | none => rw [writeCycle_takes dst c hb]; exact (beginCycle_busOnly s).trans ((h _).trans (logCycle_busOnly _ _))

theorem readMem_busOnly (s : State) (a : Word) : BusOnly s (s.readMem a).2 :=
  readCycle_busOnly s _ fun u => rawRead_busOnly u a

theorem writeMem_busOnly (s : State) (a : Word) (v : Byte) : BusOnly s (s.writeMem a v) :=
  writeCycle_busOnly s _ fun u => rawWrite_busOnly u a v

theorem readStack_busOnly (s : State) (a : Word) : BusOnly s (s.readStack a).2 :=
  readCycle_busOnly s _ fun u => rawRead_busOnly u a

theorem writeStack_busOnly (s : State) (a : Word) (v : Byte) : BusOnly s (s.writeStack a v) :=
  writeCycle_busOnly s _ fun u => rawWrite_busOnly u a v

theorem readPort_busOnly (s : State) (p : Byte) : BusOnly s (s.readPort p).2 :=
  readCycle_busOnly s _ fun u => rawInput_busOnly u p

theorem writePort_busOnly (s : State) (p : Byte) (v : Byte) : BusOnly s (s.writePort p v) :=
  writeCycle_busOnly s _ .refl

theorem suppliedByte_busOnly (s : State) (bytes : List Byte) : BusOnly s (s.suppliedByte bytes).2 :=
  readCycle_busOnly s _ (supply_busOnly bytes)

/-- The same memory-side facts with the processor free to differ. -/
structure MemoryKept (s t : State) : Prop where
  platform : t.platform = s.platform
  pins : t.pins = s.pins
  wf : s.mem.wf → t.mem.wf
  readOnly : ∀ x, s.kindAt x ≠ .ram → t.peek x = s.peek x

theorem BusOnly.memoryKept {s t : State} (h : BusOnly s t) : MemoryKept s t := ⟨h.platform, h.pins, h.wf, h.readOnly⟩

theorem MemoryKept.refl (s : State) : MemoryKept s s := (BusOnly.refl s).memoryKept

theorem MemoryKept.trans {s t u : State} (h : MemoryKept s t) (k : MemoryKept t u) : MemoryKept s u :=
  ⟨k.platform.trans h.platform, k.pins.trans h.pins, k.wf ∘ h.wf, fun x hx =>
    (k.readOnly x (by rwa [kindAt_congr h.platform])).trans (h.readOnly x hx)⟩

/-- An update of the processor alone. -/
theorem MemoryKept.of_eq {s t : State} (hp : t.platform = s.platform) (hn : t.pins = s.pins) (hm : t.mem = s.mem) :
    MemoryKept s t :=
  ⟨hp, hn, fun h => hm ▸ h, fun x _ => by rw [State.peek, State.peek, hm]⟩

/-! ### The stack -/

/-- PUSH and CALL leave every register but SP as it was. -/
theorem push16_cpu (s : State) (v : Word) : (s.push16 v).cpu = { s.cpu with sp := s.sp - 2 } := by
  have h := ((writeStack_busOnly s (s.sp - 1) (hiByte v)).trans (writeStack_busOnly _ (s.sp - 2) (loByte v))).cpu
  rw [State.push16, State.setSp_cpu, h]

theorem push16_memoryKept (s : State) (v : Word) : MemoryKept s (s.push16 v) :=
  ((writeStack_busOnly s (s.sp - 1) (hiByte v)).trans (writeStack_busOnly _ (s.sp - 2) (loByte v))).memoryKept.trans
    (.of_eq rfl rfl rfl)

/-- POP and RET read; they leave every register but SP as it was. -/
theorem pop16_cpu (s : State) : s.pop16.2.cpu = { s.cpu with sp := s.sp + 2 } := by
  have h := ((readStack_busOnly s s.sp).trans (readStack_busOnly _ (s.sp + 1))).cpu
  rw [State.pop16, State.setSp_cpu, h]

theorem pop16_memoryKept (s : State) : MemoryKept s s.pop16.2 :=
  ((readStack_busOnly s s.sp).trans (readStack_busOnly _ (s.sp + 1))).memoryKept.trans (.of_eq rfl rfl rfl)

/-! ### Conditional jumps, calls and returns, by whether they are taken -/

theorem jumpIf_eq (s : State) (cond : Cond) (target : Word) (taken : Bool) (h : cond.holds s.flags = taken) :
    s.jumpIf cond target = (s.setPc (if taken then target else s.pc)).tick 10 := by
  subst h
  unfold State.jumpIf
  split <;> rfl

theorem callIf_taken {s : State} {cond : Cond} (target : Word) (h : cond.holds s.flags = true) :
    s.callIf cond target = (s.callTo target).tick 17 := by
  rw [State.callIf, if_pos h]

theorem callIf_not {s : State} {cond : Cond} (target : Word) (h : cond.holds s.flags = false) :
    s.callIf cond target = s.tick 11 := by
  rw [State.callIf, h]
  rfl

theorem returnIf_taken {s : State} {cond : Cond} (h : cond.holds s.flags = true) :
    s.returnIf cond = s.returnTo.tick 11 := by
  rw [State.returnIf, if_pos h]

theorem returnIf_not {s : State} {cond : Cond} (h : cond.holds s.flags = false) : s.returnIf cond = s.tick 5 := by
  rw [State.returnIf, h]
  rfl

/-! ### Undisturbed cycles: exactly what they do -/

theorem beginCycle_undisturbed {s : State} (h : s.Undisturbed) : s.beginCycle = s := by
  unfold State.beginCycle
  rw [h.2, h.1]

theorem readCycle_undisturbed {s : State} (h : s.Undisturbed) (src : State → Byte × State) (mk : Byte → BusCycle) :
    s.readCycle src mk = ((src s).1, (src s).2.logCycle (mk (src s).1)) := by
  simp only [State.readCycle, beginCycle_undisturbed h, h.2]

theorem writeCycle_undisturbed {s : State} (h : s.Undisturbed) (dst : State → State) (c : BusCycle) :
    s.writeCycle dst c = (dst s).logCycle c := by
  simp only [State.writeCycle, beginCycle_undisturbed h, h.2]

theorem readMem_undisturbed {s : State} (h : s.Undisturbed) (a : Word) :
    s.readMem a = ((s.rawRead a).1, (s.rawRead a).2.logCycle (.memRead a (s.rawRead a).1)) :=
  readCycle_undisturbed h _ _

theorem writeMem_undisturbed {s : State} (h : s.Undisturbed) (a : Word) (v : Byte) :
    s.writeMem a v = (s.rawWrite a v).logCycle (.memWrite a v) :=
  writeCycle_undisturbed h _ _

theorem readStack_undisturbed {s : State} (h : s.Undisturbed) (a : Word) :
    s.readStack a = ((s.rawRead a).1, (s.rawRead a).2.logCycle (.stackRead a (s.rawRead a).1)) :=
  readCycle_undisturbed h _ _

theorem writeStack_undisturbed {s : State} (h : s.Undisturbed) (a : Word) (v : Byte) :
    s.writeStack a v = (s.rawWrite a v).logCycle (.stackWrite a v) :=
  writeCycle_undisturbed h _ _

theorem readPort_undisturbed {s : State} (h : s.Undisturbed) (p : Byte) :
    s.readPort p = ((s.rawInput p).1, (s.rawInput p).2.logCycle (.input p (s.rawInput p).1)) :=
  readCycle_undisturbed h _ _

theorem writePort_undisturbed {s : State} (h : s.Undisturbed) (p v : Byte) :
    s.writePort p v = s.logCycle (.output p v) :=
  writeCycle_undisturbed h _ _

/-- A read of memory gives its byte and changes nothing (20_memory.md R58). -/
theorem rawRead_of_memory {s : State} {a : Word} (h : s.HoldsMemory a) : s.rawRead a = (s.peek a, s) := by
  unfold State.rawRead
  rcases h with h | h <;> rw [h]

theorem deviceAnswer_logCycle (s : State) (c : BusCycle) :
    (s.logCycle c).deviceAnswer = (s.deviceAnswer.1, s.deviceAnswer.2.logCycle c) := by
  cases h : s.answers with
  | nil => simp only [State.deviceAnswer, State.logCycle_answers, h]; rfl
  | cons v rest => simp only [State.deviceAnswer, State.logCycle_answers, h]; rfl

/-- What answers a read does not look at the record of cycles. -/
theorem rawRead_logCycle (s : State) (c : BusCycle) (a : Word) :
    (s.logCycle c).rawRead a = ((s.rawRead a).1, (s.rawRead a).2.logCycle c) := by
  cases hk : s.kindAt a with
  | device => simp only [State.rawRead, State.logCycle_kindAt, hk, deviceAnswer_logCycle]
  | _ => simp only [State.rawRead, State.logCycle_kindAt, hk]; rfl

/-- What answers a read changes only `answers` and `draws`. -/
structure AnswerOnly (s t : State) : Prop where
  cpu : t.cpu = s.cpu
  mem : t.mem = s.mem
  platform : t.platform = s.platform
  pins : t.pins = s.pins
  slots : t.slots = s.slots
  abandoned : t.abandoned = s.abandoned
  hlda : t.hlda = s.hlda
  bus : t.bus = s.bus
  waitStates : t.waitStates = s.waitStates
  clocks : t.clocks = s.clocks

theorem AnswerOnly.refl (s : State) : AnswerOnly s s := ⟨rfl, rfl, rfl, rfl, rfl, rfl, rfl, rfl, rfl, rfl⟩

theorem deviceAnswer_answerOnly (s : State) : AnswerOnly s s.deviceAnswer.2 := by
  unfold State.deviceAnswer
  split <;> exact ⟨rfl, rfl, rfl, rfl, rfl, rfl, rfl, rfl, rfl, rfl⟩

theorem rawRead_answerOnly (s : State) (a : Word) : AnswerOnly s (s.rawRead a).2 := by
  unfold State.rawRead
  split
  · exact .refl s
  · exact .refl s
  · exact deviceAnswer_answerOnly s
  · exact ⟨rfl, rfl, rfl, rfl, rfl, rfl, rfl, rfl, rfl, rfl⟩

theorem rawInput_answerOnly (s : State) (p : Byte) : AnswerOnly s (s.rawInput p).2 := by
  unfold State.rawInput
  split
  · exact ⟨rfl, rfl, rfl, rfl, rfl, rfl, rfl, rfl, rfl, rfl⟩
  · exact deviceAnswer_answerOnly s

theorem AnswerOnly.undisturbed {s t : State} (h : AnswerOnly s t) (hu : s.Undisturbed) : t.Undisturbed :=
  ⟨h.slots.trans hu.1, h.abandoned.trans hu.2⟩

theorem AnswerOnly.peek {s t : State} (h : AnswerOnly s t) (x : Word) : t.peek x = s.peek x := by
  rw [State.peek, State.peek, h.mem]

theorem AnswerOnly.kindAt {s t : State} (h : AnswerOnly s t) (x : Word) : t.kindAt x = s.kindAt x :=
  kindAt_congr h.platform x

theorem AnswerOnly.getReg {s t : State} (h : AnswerOnly s t) : t.getReg = s.getReg :=
  funext (State.of_cpu_eq h.cpu).1

@[simp] theorem rawRead_cpu (s : State) (a : Word) : (s.rawRead a).2.cpu = s.cpu := (rawRead_answerOnly s a).cpu

@[simp] theorem rawRead_mem (s : State) (a : Word) : (s.rawRead a).2.mem = s.mem := (rawRead_answerOnly s a).mem

@[simp] theorem rawRead_platform (s : State) (a : Word) : (s.rawRead a).2.platform = s.platform := (rawRead_answerOnly s a).platform

@[simp] theorem rawRead_pins (s : State) (a : Word) : (s.rawRead a).2.pins = s.pins := (rawRead_answerOnly s a).pins

@[simp] theorem rawRead_slots (s : State) (a : Word) : (s.rawRead a).2.slots = s.slots := (rawRead_answerOnly s a).slots

@[simp] theorem rawRead_abandoned (s : State) (a : Word) : (s.rawRead a).2.abandoned = s.abandoned := (rawRead_answerOnly s a).abandoned

@[simp] theorem rawRead_hlda (s : State) (a : Word) : (s.rawRead a).2.hlda = s.hlda := (rawRead_answerOnly s a).hlda

@[simp] theorem rawRead_bus (s : State) (a : Word) : (s.rawRead a).2.bus = s.bus := (rawRead_answerOnly s a).bus

@[simp] theorem rawRead_waitStates (s : State) (a : Word) : (s.rawRead a).2.waitStates = s.waitStates :=
  (rawRead_answerOnly s a).waitStates

@[simp] theorem rawRead_clocks (s : State) (a : Word) : (s.rawRead a).2.clocks = s.clocks := (rawRead_answerOnly s a).clocks

@[simp] theorem rawRead_getReg (s : State) (a : Word) : (s.rawRead a).2.getReg = s.getReg :=
  (rawRead_answerOnly s a).getReg

@[simp] theorem rawRead_peek (s : State) (a x : Word) : (s.rawRead a).2.peek x = s.peek x :=
  (rawRead_answerOnly s a).peek x

@[simp] theorem rawRead_kindAt (s : State) (a x : Word) : (s.rawRead a).2.kindAt x = s.kindAt x :=
  (rawRead_answerOnly s a).kindAt x

/-- A write changes memory only. -/
structure WriteOnly (s t : State) : Prop where
  cpu : t.cpu = s.cpu
  platform : t.platform = s.platform
  pins : t.pins = s.pins
  slots : t.slots = s.slots
  abandoned : t.abandoned = s.abandoned
  hlda : t.hlda = s.hlda
  bus : t.bus = s.bus
  waitStates : t.waitStates = s.waitStates
  answers : t.answers = s.answers
  draws : t.draws = s.draws
  clocks : t.clocks = s.clocks

theorem rawWrite_writeOnly (s : State) (a : Word) (v : Byte) : WriteOnly s (s.rawWrite a v) := by
  unfold State.rawWrite
  split <;> exact ⟨rfl, rfl, rfl, rfl, rfl, rfl, rfl, rfl, rfl, rfl, rfl⟩

theorem WriteOnly.undisturbed {s t : State} (h : WriteOnly s t) (hu : s.Undisturbed) : t.Undisturbed :=
  ⟨h.slots.trans hu.1, h.abandoned.trans hu.2⟩

theorem WriteOnly.kindAt {s t : State} (h : WriteOnly s t) (x : Word) : t.kindAt x = s.kindAt x :=
  kindAt_congr h.platform x

@[simp] theorem rawWrite_cpu (s : State) (a : Word) (v : Byte) : (s.rawWrite a v).cpu = s.cpu :=
  (rawWrite_writeOnly s a v).cpu

@[simp] theorem rawWrite_platform (s : State) (a : Word) (v : Byte) : (s.rawWrite a v).platform = s.platform :=
  (rawWrite_writeOnly s a v).platform

@[simp] theorem rawWrite_pins (s : State) (a : Word) (v : Byte) : (s.rawWrite a v).pins = s.pins :=
  (rawWrite_writeOnly s a v).pins

@[simp] theorem rawWrite_slots (s : State) (a : Word) (v : Byte) : (s.rawWrite a v).slots = s.slots :=
  (rawWrite_writeOnly s a v).slots

@[simp] theorem rawWrite_abandoned (s : State) (a : Word) (v : Byte) : (s.rawWrite a v).abandoned = s.abandoned :=
  (rawWrite_writeOnly s a v).abandoned

@[simp] theorem rawWrite_hlda (s : State) (a : Word) (v : Byte) : (s.rawWrite a v).hlda = s.hlda :=
  (rawWrite_writeOnly s a v).hlda

@[simp] theorem rawWrite_bus (s : State) (a : Word) (v : Byte) : (s.rawWrite a v).bus = s.bus :=
  (rawWrite_writeOnly s a v).bus

@[simp] theorem rawWrite_answers (s : State) (a : Word) (v : Byte) : (s.rawWrite a v).answers = s.answers :=
  (rawWrite_writeOnly s a v).answers

@[simp] theorem rawWrite_draws (s : State) (a : Word) (v : Byte) : (s.rawWrite a v).draws = s.draws :=
  (rawWrite_writeOnly s a v).draws

@[simp] theorem rawWrite_waitStates (s : State) (a : Word) (v : Byte) : (s.rawWrite a v).waitStates = s.waitStates :=
  (rawWrite_writeOnly s a v).waitStates

@[simp] theorem rawWrite_clocks (s : State) (a : Word) (v : Byte) : (s.rawWrite a v).clocks = s.clocks :=
  (rawWrite_writeOnly s a v).clocks

@[simp] theorem rawWrite_kindAt (s : State) (a : Word) (v : Byte) (x : Word) : (s.rawWrite a v).kindAt x = s.kindAt x :=
  (rawWrite_writeOnly s a v).kindAt x

theorem logCycle_undisturbed {s : State} (h : s.Undisturbed) (c : BusCycle) : (s.logCycle c).Undisturbed := h

/-! ### Two cycles after one another, undisturbed -/

theorem logCycle_setSp (s : State) (c : BusCycle) (v : Word) : (s.logCycle c).setSp v = (s.setSp v).logCycle c := rfl

/-- POP, RET and XTHL read the low byte, then the high one. -/
theorem pop16_undisturbed {s : State} (h : s.Undisturbed) :
    s.pop16 = (mkWord ((s.rawRead s.sp).2.rawRead (s.sp + 1)).1 (s.rawRead s.sp).1,
      ((((s.rawRead s.sp).2.rawRead (s.sp + 1)).2.logCycle (.stackRead s.sp (s.rawRead s.sp).1)).logCycle
        (.stackRead (s.sp + 1) ((s.rawRead s.sp).2.rawRead (s.sp + 1)).1)).setSp (s.sp + 2)) := by
  have h1 : ((s.rawRead s.sp).2.logCycle (.stackRead s.sp (s.rawRead s.sp).1)).Undisturbed :=
    (rawRead_answerOnly s s.sp).undisturbed h
  simp only [State.pop16, readStack_undisturbed h, readStack_undisturbed h1, rawRead_logCycle]

/-- PUSH, CALL and RST write the high byte, then the low one. -/
theorem push16_undisturbed {s : State} (h : s.Undisturbed) (v : Word) :
    s.push16 v =
      (((((s.rawWrite (s.sp - 1) (hiByte v)).logCycle (.stackWrite (s.sp - 1) (hiByte v))).rawWrite (s.sp - 2)
        (loByte v)).logCycle (.stackWrite (s.sp - 2) (loByte v))).setSp (s.sp - 2)) := by
  have h1 : ((s.rawWrite (s.sp - 1) (hiByte v)).logCycle (.stackWrite (s.sp - 1) (hiByte v))).Undisturbed :=
    (rawWrite_writeOnly s (s.sp - 1) (hiByte v)).undisturbed h
  simp only [State.push16, writeStack_undisturbed h, writeStack_undisturbed h1]

/-- Two bytes written one after the other, as any later read sees them. -/
theorem rawWrite_two_peek {s : State} (a b : Word) (v w : Byte) (c : BusCycle) (x : Word) (h : s.mem.wf) :
    (((s.rawWrite a v).logCycle c).rawWrite b w).peek x = s.storedAt b w x (s.storedAt a v x (s.peek x)) := by
  have hw : ((s.rawWrite a v).logCycle c).mem.wf := (rawWrite_busOnly s a v).wf h
  rw [rawWrite_peek b w x hw, State.logCycle_peek, rawWrite_peek a v x h]
  simp only [State.storedAt, State.logCycle_kindAt, (rawWrite_writeOnly s a v).kindAt]

/-- Reads of memory give its bytes, one after the other. -/
theorem rawRead_two_of_memory {s : State} {a b : Word} (ha : s.HoldsMemory a) (hb : s.HoldsMemory b) :
    (s.rawRead a).1 = s.peek a ∧ ((s.rawRead a).2.rawRead b).1 = s.peek b := by
  rw [rawRead_of_memory ha, rawRead_of_memory hb]
  exact ⟨rfl, rfl⟩

/-- Everything a push does, undisturbed. -/
theorem push16_spec (s : State) (v : Word) (hu : s.Undisturbed) (hw : s.mem.wf) :
    (∀ x, (s.push16 v).peek x = s.storedAt (s.sp - 2) (loByte v) x (s.storedAt (s.sp - 1) (hiByte v) x (s.peek x))) ∧
      (s.push16 v).outside = { s.outside with
        mem := (s.push16 v).mem
        bus := s.bus ++ [.stackWrite (s.sp - 1) (hiByte v), .stackWrite (s.sp - 2) (loByte v)] } ∧
      (s.push16 v).clocks = s.clocks := by
  rw [push16_undisturbed hu]
  refine ⟨fun x => ?_, ?_, ?_⟩
  · rw [State.setSp_peek, State.logCycle_peek, rawWrite_two_peek _ _ _ _ _ _ hw]
  · simp [State.outside]
  · simp

/-- Everything a pop does, undisturbed. -/
theorem pop16_spec (s : State) (hu : s.Undisturbed) :
    s.pop16.1 = mkWord ((s.rawRead s.sp).2.rawRead (s.sp + 1)).1 (s.rawRead s.sp).1 ∧
      s.pop16.2.outside = { ((s.rawRead s.sp).2.rawRead (s.sp + 1)).2.outside with
        bus := s.bus ++ [.stackRead s.sp (s.rawRead s.sp).1,
          .stackRead (s.sp + 1) ((s.rawRead s.sp).2.rawRead (s.sp + 1)).1] } ∧
      s.pop16.2.clocks = s.clocks ∧ ∀ x, s.pop16.2.peek x = s.peek x := by
  rw [pop16_undisturbed hu]
  refine ⟨rfl, ?_, ?_, fun x => ?_⟩
  · simp
  · simp
  · simp

/-- `storedAt` looks at the kinds of addresses only. -/
theorem storedAt_congr {s t : State} (h : t.platform = s.platform) (a : Word) (v : Byte) (x : Word) (old : Byte) :
    t.storedAt a v x old = s.storedAt a v x old := by
  rw [State.storedAt, State.storedAt, kindAt_congr h]

end Sys2Proof.Machine
end

