-- ==== Sys2Proof/Laws/Step.lean ====
section
/-! SUPPORT. What one step can do: the three ways an instruction boundary goes (Reset, Hold, neither), how an instruction
ends, and the fetch of an instruction's bytes where nothing intervenes. -/

namespace Sys2Proof.Machine

/-! ### The lines at the boundary (60_exceptions.md R310) -/

/-- Taking the boundary's entry of `pins` changes `pins` alone. -/
theorem takePins_state (s : State) : s.takePins.2 = { s with pins := s.pins.tail } := by
  unfold State.takePins
  split <;> rename_i h
  · have hp : s.pins.tail = s.pins := by rw [h]; rfl
    rw [hp]
  · rw [h]
    rfl

theorem takePins_memoryFree (s : State) : s.takePins.2.cpu = s.cpu ∧ s.takePins.2.mem = s.mem ∧
    s.takePins.2.platform = s.platform ∧ s.takePins.2.slots = s.slots ∧ s.takePins.2.abandoned = s.abandoned := by
  rw [takePins_state]
  exact ⟨rfl, rfl, rfl, rfl, rfl⟩

theorem step_of_reset {s : State} (h : s.takePins.1.reset = true) : step s = .next s.takePins.2.resetLine := by
  simp only [step, stepBody, h, if_true]

theorem step_of_hold {s : State} {g : Hold} (hr : s.takePins.1.reset = false) (h : s.takePins.1.hold = some g) :
    step s = .next (s.takePins.2.enterHold g) := by
  simp only [step, stepBody, hr, h]
  rfl

theorem step_of_boundary {s : State} (hr : s.takePins.1.reset = false) (h : s.takePins.1.hold = none) :
    step s = runBoundary s.takePins.1.int s.takePins.2.leaveHold := by
  simp only [step, stepBody, hr, h]
  rfl

/-- Every step is a Reset, a Hold, or an instruction boundary. -/
theorem step_cases (s : State) :
    step s = .next s.takePins.2.resetLine ∨ (∃ g, step s = .next (s.takePins.2.enterHold g)) ∨
      step s = runBoundary s.takePins.1.int s.takePins.2.leaveHold := by
  cases hr : s.takePins.1.reset with
  | true => exact .inl (step_of_reset hr)
  | false =>
    cases hh : s.takePins.1.hold with
    | some g => exact .inr (.inl ⟨g, step_of_hold hr hh⟩)
    | none => exact .inr (.inr (step_of_boundary hr hh))

/-! ### The end of a step and of an instruction -/

theorem settle_of_none {s : State} (h : s.abandoned = none) : settle s = .next s := by
  simp only [settle, h]

/-- What the end of a step can be. -/
theorem settle_next {s t : State} (h : settle s = .next t) :
    (s.abandoned = none ∧ t = s) ∨ (s.abandoned = some .reset ∧ t = s.resetLine) := by
  unfold settle at h
  split at h
  · rename_i hn; cases h; exact .inl ⟨hn, rfl⟩
  · rename_i hn; cases h; exact .inr ⟨hn, rfl⟩
  · cases h

/-- What the end of an instruction can be: `ei_inhibit` is cleared but after FBH. -/
theorem finish_next {op : Byte} {o : Outcome} {t : State} (h : finish op o = .next t) :
    ∃ s, o = .next s ∧ settle (if op = 0xFB then s else { s with eiInhibit := false }) = .next t := by
  cases o with
  | next s => exact ⟨s, rfl, h⟩
  | fault r => cases h
  | refused r => cases h

/-- After an instruction with nothing in its way, the step ends in its state. -/
theorem finish_of_none {op : Byte} {s : State} (h : s.abandoned = none) :
    finish op (.next s) = .next (if op = 0xFB then s else { s with eiInhibit := false }) := by
  unfold finish
  split_ifs with hop
  · simp only [settle_of_none h]
  · exact settle_of_none h

/-! ### Reset (70_reset_and_hazards.md R320) -/

@[simp] theorem resetLine_pc (s : State) : s.resetLine.pc = 0 := rfl
@[simp] theorem resetLine_ir (s : State) : s.resetLine.ir = 0 := rfl
@[simp] theorem resetLine_inte (s : State) : s.resetLine.inte = false := rfl
@[simp] theorem resetLine_hlda (s : State) : s.resetLine.hlda = false := rfl
@[simp] theorem resetLine_halted (s : State) : s.resetLine.halted = false := rfl
@[simp] theorem resetLine_eiInhibit (s : State) : s.resetLine.eiInhibit = false := rfl
@[simp] theorem resetLine_abandoned (s : State) : s.resetLine.abandoned = none := rfl
@[simp] theorem resetLine_mem (s : State) : s.resetLine.mem = s.mem := rfl
@[simp] theorem resetLine_platform (s : State) : s.resetLine.platform = s.platform := rfl
@[simp] theorem resetLine_pins (s : State) : s.resetLine.pins = s.pins := rfl
@[simp] theorem resetLine_slots (s : State) : s.resetLine.slots = s.slots := rfl
@[simp] theorem resetLine_peek (s : State) (x : Word) : s.resetLine.peek x = s.peek x := rfl

/-! ### Fetching undisturbed from memory (00_scope.md R14) -/

theorem fetchOpcode_undisturbed {s : State} (h : s.Undisturbed) (hm : s.HoldsMemory s.pc) :
    s.fetchOpcode = (s.peek s.pc, (s.logCycle (.fetch s.pc (s.peek s.pc))).setPc (s.pc + 1)) := by
  simp only [State.fetchOpcode, readCycle_undisturbed h, rawRead_of_memory hm]

theorem fetch8_undisturbed {s : State} (h : s.Undisturbed) (hm : s.HoldsMemory s.pc) :
    s.fetch8 = (s.peek s.pc, (s.logCycle (.memRead s.pc (s.peek s.pc))).setPc (s.pc + 1)) := by
  simp only [State.fetch8, readMem_undisturbed h, rawRead_of_memory hm]

theorem fetch16_undisturbed {s : State} (h : s.Undisturbed) (hm : s.HoldsMemory s.pc)
    (hm' : s.HoldsMemory (s.pc + 1)) :
    s.fetch16 = (mkWord (s.peek (s.pc + 1)) (s.peek s.pc),
      (((s.logCycle (.memRead s.pc (s.peek s.pc))).setPc (s.pc + 1)).logCycle
        (.memRead (s.pc + 1) (s.peek (s.pc + 1)))).setPc (s.pc + 1 + 1)) := by
  have h1 : ((s.logCycle (.memRead s.pc (s.peek s.pc))).setPc (s.pc + 1)).Undisturbed := h
  have h2 : ((s.logCycle (.memRead s.pc (s.peek s.pc))).setPc (s.pc + 1)).HoldsMemory (s.pc + 1) := hm'
  simp only [State.fetch16, fetch8_undisturbed h hm]
  rw [fetch8_undisturbed h1 h2]
  rfl

/-- The fetch cycles move pc and touch nothing else of the processor. -/
theorem fetchOpcode_cpu (s : State) : s.fetchOpcode.2.cpu = { s.cpu with pc := s.pc + 1 } := by
  have h := (readCycle_busOnly s (.fetch s.pc) fun u => rawRead_busOnly u s.pc).cpu
  rw [State.fetchOpcode, State.setPc_cpu, h]

theorem fetchOpcode_memoryKept (s : State) : MemoryKept s s.fetchOpcode.2 :=
  (readCycle_busOnly s (.fetch s.pc) fun u => rawRead_busOnly u s.pc).memoryKept.trans (.of_eq rfl rfl rfl)

theorem fetch8_cpu (s : State) : s.fetch8.2.cpu = { s.cpu with pc := s.pc + 1 } := by
  rw [State.fetch8, State.setPc_cpu, (readMem_busOnly s s.pc).cpu]

theorem fetch8_memoryKept (s : State) : MemoryKept s s.fetch8.2 :=
  (readMem_busOnly s s.pc).memoryKept.trans (.of_eq rfl rfl rfl)

theorem fetch16_memoryKept (s : State) : MemoryKept s s.fetch16.2 :=
  (fetch8_memoryKept s).trans (fetch8_memoryKept _)

/-- The acceptance of an interrupt clears INTE and the halt, loads IR, and touches nothing else of the processor
(60_exceptions.md R288). -/
theorem acknowledge_cpu (s : State) (bytes : List Byte) :
    (s.acknowledge bytes).2.cpu =
      { s.cpu with inte := false, halted := false, ir := (s.acknowledge bytes).1 } := by
  have h := (readCycle_busOnly { s with inte := false, halted := false } (fun v => .intAck s.pc v s.halted)
    (supply_busOnly bytes)).cpu
  obtain ⟨hr, hsp, hpc, hf, hi, hh, he, -⟩ := State.of_cpu_eq h
  refine Cpu.eq_of (fun r => ?_) ?_
  · refine Eq.trans ?_ ((hr r).trans ?_)
    · cases r <;> rfl
    · cases r <;> rfl
  · simp only [Prod.mk.injEq]
    exact ⟨hsp, hpc, hf, hi, hh, he, rfl⟩

theorem acknowledge_memoryKept (s : State) (bytes : List Byte) : MemoryKept s (s.acknowledge bytes).2 := by
  have h := (readCycle_busOnly { s with inte := false, halted := false } (fun v => .intAck s.pc v s.halted)
    (supply_busOnly bytes)).memoryKept
  exact ⟨h.platform, h.pins, h.wf, h.readOnly⟩

/-! ### The step without Reset or Hold -/

theorem takePins_leaveHold (s : State) : s.takePins.2.leaveHold = { s with pins := s.pins.tail, hlda := false } := by
  rw [takePins_state]
  rfl

theorem step_of_linesAre {s : State} {int : Option (List Byte)} (h : s.LinesAre int) :
    step s = runBoundary int s.takePins.2.leaveHold := by
  rw [step_of_boundary (by rw [h]) (by rw [h]), h]

/-- Where no interrupt is accepted the program goes on (60_exceptions.md R287, R310). -/
theorem step_of_notAccepted {s : State} {int : Option (List Byte)} (h : s.LinesAre int)
    (ha : int = none ∨ s.acceptsInterrupt = false) : step s = runProgram s.takePins.2.leaveHold := by
  rw [step_of_linesAre h]
  have hs : s.takePins.2.leaveHold.acceptsInterrupt = s.acceptsInterrupt := by rw [takePins_leaveHold]; rfl
  rcases ha with rfl | ha
  · rfl
  · cases int
    · rfl
    · simp only [runBoundary, hs, ha]
      rfl

theorem fetched_undisturbed {s : State} (n : Nat) (h : s.Undisturbed) : (s.fetched n).Undisturbed := by
  unfold State.fetched
  rw [takePins_state]
  exact h

/-- The M1 cycle of an undisturbed step, with IR loaded. -/
theorem fetched_opcode {s : State} (h : s.Undisturbed) (hm : s.HoldsMemory s.pc) :
    s.takePins.2.leaveHold.fetchOpcode.1 = s.peek s.pc ∧
      s.takePins.2.leaveHold.fetchOpcode.2.abandoned = none ∧
      { s.takePins.2.leaveHold.fetchOpcode.2 with ir := s.peek s.pc } = s.fetched 1 := by
  have h1 : s.takePins.2.leaveHold.Undisturbed := by rw [takePins_state]; exact h
  have h2 : s.takePins.2.leaveHold.HoldsMemory s.takePins.2.leaveHold.pc := by rw [takePins_state]; exact hm
  rw [fetchOpcode_undisturbed h1 h2]
  unfold State.fetched
  rw [takePins_state]
  exact ⟨rfl, h.2, rfl⟩

/-- Byte 2 of an undisturbed step. -/
theorem fetched_fetch8 {s : State} (h : s.Undisturbed) (hm : s.HoldsMemory (s.pc + 1)) :
    (s.fetched 1).fetch8 = (s.peek (s.pc + 1), s.fetched 2) := by
  have h2 : (s.fetched 1).HoldsMemory (s.fetched 1).pc := by unfold State.fetched; rw [takePins_state]; exact hm
  rw [fetch8_undisturbed (fetched_undisturbed 1 h) h2]
  unfold State.fetched
  rw [takePins_state]
  simp [State.logCycle, State.setPc, State.fetchCycles, State.peek, BitVec.add_assoc]

/-- Bytes 2 and 3 of an undisturbed step, low byte first. -/
theorem fetched_fetch16 {s : State} (h : s.Undisturbed) (hm : s.HoldsMemory (s.pc + 1))
    (hm' : s.HoldsMemory (s.pc + 2)) :
    (s.fetched 1).fetch16 = (mkWord (s.peek (s.pc + 2)) (s.peek (s.pc + 1)), s.fetched 3) := by
  have h2 : (s.fetched 2).HoldsMemory (s.fetched 2).pc := by unfold State.fetched; rw [takePins_state]; exact hm'
  rw [State.fetch16, fetched_fetch8 h hm]
  dsimp only
  rw [fetch8_undisturbed (fetched_undisturbed 2 h) h2]
  unfold State.fetched
  rw [takePins_state]
  simp [State.logCycle, State.setPc, State.fetchCycles, State.peek, BitVec.add_assoc, List.range_succ]

/-- A step that fetches from memory with nothing in between: the opcode selects what runs (60_exceptions.md R310). -/
theorem step_fetches {s : State} {int : Option (List Byte)} (hl : s.LinesAre int)
    (ha : int = none ∨ s.acceptsInterrupt = false) (hh : s.halted = false) (hu : s.Undisturbed)
    (hm : s.HoldsMemory s.pc) :
    step s =
      match decodeOpcodeUnder s.platform.unassigned (s.peek s.pc) with
      | .one i => finish (s.peek s.pc) (exec i (s.fetched 1))
      | .two f => finish (s.peek s.pc) (exec (f (s.fetched 1).fetch8.1) (s.fetched 1).fetch8.2)
      | .three f => finish (s.peek s.pc) (exec (f (s.fetched 1).fetch16.1) (s.fetched 1).fetch16.2)
      | .unassigned => .refused (.unassignedOpcode (s.peek s.pc)) := by
  obtain ⟨h1, h2, h3⟩ := fetched_opcode hu hm
  have hh' : s.takePins.2.leaveHold.halted = false := by rw [takePins_leaveHold]; exact hh
  have hp : s.takePins.2.leaveHold.platform = s.platform := by rw [takePins_leaveHold]
  dsimp only at h3
  rw [h2] at h3
  rw [step_of_notAccepted hl ha, runProgram, hh']
  cases hd : decodeOpcodeUnder s.platform.unassigned (s.peek s.pc) <;>
    simp only [runFetched, h1, h2, hp, h3, hd, Bool.false_eq_true, if_false]

theorem acknowledged_undisturbed {s : State} (op : Byte) (bytes : List Byte) (h : s.Undisturbed) :
    (s.acknowledged op bytes).Undisturbed := by
  unfold State.acknowledged
  rw [takePins_state]
  exact h

/-- The acknowledge cycle of an undisturbed step (60_exceptions.md R288). -/
theorem acknowledge_undisturbed {s : State} (op : Byte) (rest : List Byte) (h : s.Undisturbed) :
    s.takePins.2.leaveHold.acknowledge (op :: rest) = (op, s.acknowledged op [op]) := by
  rw [takePins_leaveHold]
  have hu : State.Undisturbed
      { s with pins := s.pins.tail, hlda := false, inte := false, halted := false } := h
  unfold State.acknowledge
  dsimp only
  rw [readCycle_undisturbed hu]
  unfold State.acknowledged
  rw [takePins_state]
  rfl

/-- A further supplied byte of an undisturbed step (60_exceptions.md R290, R291). -/
theorem suppliedByte_undisturbed {s : State} (op v : Byte) (before rest : List Byte) (h : s.Undisturbed) :
    (s.acknowledged op (op :: before)).suppliedByte (v :: rest) = (v, s.acknowledged op (op :: (before ++ [v]))) := by
  rw [State.suppliedByte, readCycle_undisturbed (acknowledged_undisturbed op _ h)]
  unfold State.acknowledged
  rw [takePins_state]
  simp [supply, State.logCycle, State.supplyCycles]

end Sys2Proof.Machine
end

