-- ==== Sys2Proof/Laws/Exec.lean ====
section
/-! SUPPORT. What every instruction keeps, whatever the schedule of Holds, Waits and Resets: the parameters, the lines, the
canonical form of memory, and every byte outside read/write memory. -/

namespace Sys2Proof.Machine

/-! ### Conditional jumps, calls and returns -/

theorem jumpIf_memoryKept (s : State) (cond : Cond) (target : Word) : MemoryKept s (s.jumpIf cond target) := by
  rw [jumpIf_eq s cond target _ rfl]
  exact .of_eq rfl rfl rfl

theorem callTo_memoryKept (s : State) (target : Word) : MemoryKept s (s.callTo target) :=
  (push16_memoryKept s s.pc).trans (.of_eq rfl rfl rfl)

theorem callIf_memoryKept (s : State) (cond : Cond) (target : Word) : MemoryKept s (s.callIf cond target) := by
  cases h : cond.holds s.flags with
  | false => rw [callIf_not _ h]; exact .of_eq rfl rfl rfl
  | true => rw [callIf_taken _ h]; exact (callTo_memoryKept s target).trans (.of_eq rfl rfl rfl)

theorem returnTo_memoryKept (s : State) : MemoryKept s s.returnTo :=
  (pop16_memoryKept s).trans (.of_eq rfl rfl rfl)

theorem returnIf_memoryKept (s : State) (cond : Cond) : MemoryKept s (s.returnIf cond) := by
  cases h : cond.holds s.flags with
  | false => rw [returnIf_not h]; exact .of_eq rfl rfl rfl
  | true => rw [returnIf_taken h]; exact (returnTo_memoryKept s).trans (.of_eq rfl rfl rfl)

theorem setReg_memoryKept (s : State) (r : Reg) (v : Byte) : MemoryKept s (s.setReg r v) :=
  .of_eq (s.setReg_platform r v) (s.setReg_pins r v) (s.setReg_mem r v)

/-! ### Every instruction -/

/-- What every instruction keeps. -/
theorem exec_memoryKept {i : Instr} {s t : State} (h : exec i s = .next t) : MemoryKept s t := by
  cases i <;> cases h
  case movRR => exact (setReg_memoryKept s _ _).trans (.of_eq rfl rfl rfl)
  case movMR => exact (writeMem_busOnly s _ _).memoryKept.trans (.of_eq rfl rfl rfl)
  case movRM => exact (readMem_busOnly s _).memoryKept.trans ((setReg_memoryKept _ _ _).trans (.of_eq rfl rfl rfl))
  case mviR => exact (setReg_memoryKept s _ _).trans (.of_eq rfl rfl rfl)
  case mviM => exact (writeMem_busOnly s _ _).memoryKept.trans (.of_eq rfl rfl rfl)
  case lda => exact (readMem_busOnly s _).memoryKept.trans (.of_eq rfl rfl rfl)
  case ldaxB => exact (readMem_busOnly s _).memoryKept.trans (.of_eq rfl rfl rfl)
  case ldaxD => exact (readMem_busOnly s _).memoryKept.trans (.of_eq rfl rfl rfl)
  case lhld => exact ((readMem_busOnly s _).trans (readMem_busOnly _ _)).memoryKept.trans (.of_eq rfl rfl rfl)
  case lxiH => exact .of_eq rfl rfl rfl
  case lxiD => exact .of_eq rfl rfl rfl
  case lxiB => exact .of_eq rfl rfl rfl
  case lxiSp => exact .of_eq rfl rfl rfl
  case shld => exact ((writeMem_busOnly s _ _).trans (writeMem_busOnly _ _ _)).memoryKept.trans (.of_eq rfl rfl rfl)
  case sta => exact (writeMem_busOnly s _ _).memoryKept.trans (.of_eq rfl rfl rfl)
  case staxB => exact (writeMem_busOnly s _ _).memoryKept.trans (.of_eq rfl rfl rfl)
  case staxD => exact (writeMem_busOnly s _ _).memoryKept.trans (.of_eq rfl rfl rfl)
  case sphl => exact .of_eq rfl rfl rfl
  case xchg => exact .of_eq rfl rfl rfl
  case xthl => exact (((readStack_busOnly s _).trans (readStack_busOnly _ _)).trans ((writeStack_busOnly _ _ _).trans
      (writeStack_busOnly _ _ _))).memoryKept.trans (.of_eq rfl rfl rfl)
  case inPort => exact (readPort_busOnly s _).memoryKept.trans (.of_eq rfl rfl rfl)
  case outPort => exact (writePort_busOnly s _ _).memoryKept.trans (.of_eq rfl rfl rfl)
  case hlt =>
    have k : MemoryKept s { s with halted := true } := .of_eq rfl rfl rfl
    exact k.trans ((writeCycle_busOnly _ _ .refl).memoryKept.trans (.of_eq rfl rfl rfl))
  case stc => exact .of_eq rfl rfl rfl
  case cmc => exact .of_eq rfl rfl rfl
  case ei => exact .of_eq rfl rfl rfl
  case di => exact .of_eq rfl rfl rfl
  case nop => exact .of_eq rfl rfl rfl
  case jmp => exact .of_eq rfl rfl rfl
  case jc => exact jumpIf_memoryKept s _ _
  case jnc => exact jumpIf_memoryKept s _ _
  case jz => exact jumpIf_memoryKept s _ _
  case jnz => exact jumpIf_memoryKept s _ _
  case jp => exact jumpIf_memoryKept s _ _
  case jm => exact jumpIf_memoryKept s _ _
  case jpe => exact jumpIf_memoryKept s _ _
  case jpo => exact jumpIf_memoryKept s _ _
  case pchl => exact .of_eq rfl rfl rfl
  case call addr => exact (callTo_memoryKept s addr).trans (.of_eq rfl rfl rfl)
  case cc => exact callIf_memoryKept s _ _
  case cnc => exact callIf_memoryKept s _ _
  case cz => exact callIf_memoryKept s _ _
  case cnz => exact callIf_memoryKept s _ _
  case cp => exact callIf_memoryKept s _ _
  case cm => exact callIf_memoryKept s _ _
  case cpe => exact callIf_memoryKept s _ _
  case cpo => exact callIf_memoryKept s _ _
  case ret => exact (returnTo_memoryKept s).trans (.of_eq rfl rfl rfl)
  case rc => exact returnIf_memoryKept s _
  case rnc => exact returnIf_memoryKept s _
  case rz => exact returnIf_memoryKept s _
  case rnz => exact returnIf_memoryKept s _
  case rp => exact returnIf_memoryKept s _
  case rm => exact returnIf_memoryKept s _
  case rpe => exact returnIf_memoryKept s _
  case rpo => exact returnIf_memoryKept s _
  case rst vvv => exact (callTo_memoryKept s (0#10 ++ vvv ++ 0#3)).trans (.of_eq rfl rfl rfl)
  case addR => exact .of_eq rfl rfl rfl
  case adcR => exact .of_eq rfl rfl rfl
  case addM => exact (readMem_busOnly s _).memoryKept.trans (.of_eq rfl rfl rfl)
  case adcM => exact (readMem_busOnly s _).memoryKept.trans (.of_eq rfl rfl rfl)
  case adi => exact .of_eq rfl rfl rfl
  case aci => exact .of_eq rfl rfl rfl
  case dadB => exact .of_eq rfl rfl rfl
  case dadD => exact .of_eq rfl rfl rfl
  case dadH => exact .of_eq rfl rfl rfl
  case dadSp => exact .of_eq rfl rfl rfl
  case subR => exact .of_eq rfl rfl rfl
  case sbbR => exact .of_eq rfl rfl rfl
  case subM => exact (readMem_busOnly s _).memoryKept.trans (.of_eq rfl rfl rfl)
  case sbbM => exact (readMem_busOnly s _).memoryKept.trans (.of_eq rfl rfl rfl)
  case sui => exact .of_eq rfl rfl rfl
  case sbi => exact .of_eq rfl rfl rfl
  case daa => exact .of_eq rfl rfl rfl
  case pushB => exact (push16_memoryKept s _).trans (.of_eq rfl rfl rfl)
  case pushD => exact (push16_memoryKept s _).trans (.of_eq rfl rfl rfl)
  case pushH => exact (push16_memoryKept s _).trans (.of_eq rfl rfl rfl)
  case pushPsw => exact (push16_memoryKept s _).trans (.of_eq rfl rfl rfl)
  case popB => exact (pop16_memoryKept s).trans (.of_eq rfl rfl rfl)
  case popD => exact (pop16_memoryKept s).trans (.of_eq rfl rfl rfl)
  case popH => exact (pop16_memoryKept s).trans (.of_eq rfl rfl rfl)
  case popPsw => exact (pop16_memoryKept s).trans (.of_eq rfl rfl rfl)
  case anaR => exact .of_eq rfl rfl rfl
  case anaM => exact (readMem_busOnly s _).memoryKept.trans (.of_eq rfl rfl rfl)
  case ani => exact .of_eq rfl rfl rfl
  case xraR => exact .of_eq rfl rfl rfl
  case xraM => exact (readMem_busOnly s _).memoryKept.trans (.of_eq rfl rfl rfl)
  case xri => exact .of_eq rfl rfl rfl
  case oraR => exact .of_eq rfl rfl rfl
  case oraM => exact (readMem_busOnly s _).memoryKept.trans (.of_eq rfl rfl rfl)
  case ori => exact .of_eq rfl rfl rfl
  case cmpR => exact .of_eq rfl rfl rfl
  case cmpM => exact (readMem_busOnly s _).memoryKept.trans (.of_eq rfl rfl rfl)
  case cpi => exact .of_eq rfl rfl rfl
  case cma => exact .of_eq rfl rfl rfl
  case rlc => exact .of_eq rfl rfl rfl
  case rrc => exact .of_eq rfl rfl rfl
  case ral => exact .of_eq rfl rfl rfl
  case rar => exact .of_eq rfl rfl rfl
  case inrR => exact (setReg_memoryKept s _ _).trans (.of_eq rfl rfl rfl)
  case inrM => exact ((readMem_busOnly s _).trans (writeMem_busOnly _ _ _)).memoryKept.trans (.of_eq rfl rfl rfl)
  case inxB => exact .of_eq rfl rfl rfl
  case inxD => exact .of_eq rfl rfl rfl
  case inxH => exact .of_eq rfl rfl rfl
  case inxSp => exact .of_eq rfl rfl rfl
  case dcrR => exact (setReg_memoryKept s _ _).trans (.of_eq rfl rfl rfl)
  case dcrM => exact ((readMem_busOnly s _).trans (writeMem_busOnly _ _ _)).memoryKept.trans (.of_eq rfl rfl rfl)
  case dcxB => exact .of_eq rfl rfl rfl
  case dcxD => exact .of_eq rfl rfl rfl
  case dcxH => exact .of_eq rfl rfl rfl
  case dcxSp => exact .of_eq rfl rfl rfl

/-! ### Undisturbed instructions stay undisturbed -/

theorem readMem_calm {s : State} (h : s.Undisturbed) (a : Word) : (s.readMem a).2.Undisturbed := by
  rw [readMem_undisturbed h]
  exact (rawRead_answerOnly s a).undisturbed h

theorem writeMem_calm {s : State} (h : s.Undisturbed) (a : Word) (v : Byte) : (s.writeMem a v).Undisturbed := by
  rw [writeMem_undisturbed h]
  exact (rawWrite_writeOnly s a v).undisturbed h

theorem readStack_calm {s : State} (h : s.Undisturbed) (a : Word) : (s.readStack a).2.Undisturbed := by
  rw [readStack_undisturbed h]
  exact (rawRead_answerOnly s a).undisturbed h

theorem writeStack_calm {s : State} (h : s.Undisturbed) (a : Word) (v : Byte) : (s.writeStack a v).Undisturbed := by
  rw [writeStack_undisturbed h]
  exact (rawWrite_writeOnly s a v).undisturbed h

theorem readPort_calm {s : State} (h : s.Undisturbed) (p : Byte) : (s.readPort p).2.Undisturbed := by
  rw [readPort_undisturbed h]
  exact (rawInput_answerOnly s p).undisturbed h

theorem writePort_calm {s : State} (h : s.Undisturbed) (p v : Byte) : (s.writePort p v).Undisturbed := by
  rw [writePort_undisturbed h]
  exact h

theorem push16_calm {s : State} (h : s.Undisturbed) (v : Word) : (s.push16 v).Undisturbed :=
  writeStack_calm (writeStack_calm h _ _) _ _

theorem pop16_calm {s : State} (h : s.Undisturbed) : s.pop16.2.Undisturbed := readStack_calm (readStack_calm h _) _

theorem jumpIf_calm {s : State} (h : s.Undisturbed) (cond : Cond) (target : Word) :
    (s.jumpIf cond target).Undisturbed := by
  rw [jumpIf_eq s cond target _ rfl]
  exact h

theorem callIf_calm {s : State} (h : s.Undisturbed) (cond : Cond) (target : Word) :
    (s.callIf cond target).Undisturbed := by
  cases hc : cond.holds s.flags with
  | false => rw [callIf_not _ hc]; exact h
  | true => rw [callIf_taken _ hc]; exact push16_calm h s.pc

theorem returnIf_calm {s : State} (h : s.Undisturbed) (cond : Cond) : (s.returnIf cond).Undisturbed := by
  cases hc : cond.holds s.flags with
  | false => rw [returnIf_not hc]; exact h
  | true => rw [returnIf_taken hc]; exact pop16_calm h

theorem setReg_calm {s : State} (h : s.Undisturbed) (r : Reg) (v : Byte) : (s.setReg r v).Undisturbed :=
  ⟨(s.setReg_slots r v).trans h.1, (s.setReg_abandoned r v).trans h.2⟩

/-- Where nothing intervenes before an instruction nothing is left over after it. -/
theorem exec_undisturbed {i : Instr} {s t : State} (hu : s.Undisturbed) (h : exec i s = .next t) : t.Undisturbed := by
  cases i <;> cases h
  case movRR => exact setReg_calm hu _ _
  case movMR => exact writeMem_calm hu _ _
  case movRM => exact setReg_calm (readMem_calm hu _) _ _
  case mviR => exact setReg_calm hu _ _
  case mviM => exact writeMem_calm hu _ _
  case lda => exact readMem_calm hu _
  case ldaxB => exact readMem_calm hu _
  case ldaxD => exact readMem_calm hu _
  case lhld => exact readMem_calm (readMem_calm hu _) _
  case lxiH => exact hu
  case lxiD => exact hu
  case lxiB => exact hu
  case lxiSp => exact hu
  case shld => exact writeMem_calm (writeMem_calm hu _ _) _ _
  case sta => exact writeMem_calm hu _ _
  case staxB => exact writeMem_calm hu _ _
  case staxD => exact writeMem_calm hu _ _
  case sphl => exact hu
  case xchg => exact hu
  case xthl => exact writeStack_calm (writeStack_calm (readStack_calm (readStack_calm hu _) _) _ _) _ _
  case inPort => exact readPort_calm hu _
  case outPort => exact writePort_calm hu _ _
  case hlt =>
    rw [writeCycle_undisturbed (s := { s with halted := true }) hu]
    exact hu
  case stc => exact hu
  case cmc => exact hu
  case ei => exact hu
  case di => exact hu
  case nop => exact hu
  case jmp => exact hu
  case jc => exact jumpIf_calm hu _ _
  case jnc => exact jumpIf_calm hu _ _
  case jz => exact jumpIf_calm hu _ _
  case jnz => exact jumpIf_calm hu _ _
  case jp => exact jumpIf_calm hu _ _
  case jm => exact jumpIf_calm hu _ _
  case jpe => exact jumpIf_calm hu _ _
  case jpo => exact jumpIf_calm hu _ _
  case pchl => exact hu
  case call => exact push16_calm hu _
  case cc => exact callIf_calm hu _ _
  case cnc => exact callIf_calm hu _ _
  case cz => exact callIf_calm hu _ _
  case cnz => exact callIf_calm hu _ _
  case cp => exact callIf_calm hu _ _
  case cm => exact callIf_calm hu _ _
  case cpe => exact callIf_calm hu _ _
  case cpo => exact callIf_calm hu _ _
  case ret => exact pop16_calm hu
  case rc => exact returnIf_calm hu _
  case rnc => exact returnIf_calm hu _
  case rz => exact returnIf_calm hu _
  case rnz => exact returnIf_calm hu _
  case rp => exact returnIf_calm hu _
  case rm => exact returnIf_calm hu _
  case rpe => exact returnIf_calm hu _
  case rpo => exact returnIf_calm hu _
  case rst => exact push16_calm hu _
  case addR => exact hu
  case adcR => exact hu
  case addM => exact readMem_calm hu _
  case adcM => exact readMem_calm hu _
  case adi => exact hu
  case aci => exact hu
  case dadB => exact hu
  case dadD => exact hu
  case dadH => exact hu
  case dadSp => exact hu
  case subR => exact hu
  case sbbR => exact hu
  case subM => exact readMem_calm hu _
  case sbbM => exact readMem_calm hu _
  case sui => exact hu
  case sbi => exact hu
  case daa => exact hu
  case pushB => exact push16_calm hu _
  case pushD => exact push16_calm hu _
  case pushH => exact push16_calm hu _
  case pushPsw => exact push16_calm hu _
  case popB => exact pop16_calm hu
  case popD => exact pop16_calm hu
  case popH => exact pop16_calm hu
  case popPsw => exact pop16_calm hu
  case anaR => exact hu
  case anaM => exact readMem_calm hu _
  case ani => exact hu
  case xraR => exact hu
  case xraM => exact readMem_calm hu _
  case xri => exact hu
  case oraR => exact hu
  case oraM => exact readMem_calm hu _
  case ori => exact hu
  case cmpR => exact hu
  case cmpM => exact readMem_calm hu _
  case cpi => exact hu
  case cma => exact hu
  case rlc => exact hu
  case rrc => exact hu
  case ral => exact hu
  case rar => exact hu
  case inrR => exact setReg_calm hu _ _
  case inrM => exact writeMem_calm (readMem_calm hu _) _ _
  case inxB => exact hu
  case inxD => exact hu
  case inxH => exact hu
  case inxSp => exact hu
  case dcrR => exact setReg_calm hu _ _
  case dcrM => exact writeMem_calm (readMem_calm hu _) _ _
  case dcxB => exact hu
  case dcxD => exact hu
  case dcxH => exact hu
  case dcxSp => exact hu

end Sys2Proof.Machine
end

