-- ==== Sys2Proof/Laws/PerInstr.lean ====
section
/-! SUPPORT. A statement made of every instruction, one lemma per constructor: it is well formed, and its encoding has one,
two or three bytes, as many as its first byte announces (30_encoding.md R80, R87). -/

namespace Sys2Proof.Laws

/-- The instruction passes the static checks; its encoding is not empty, has at most three bytes, and its first byte
announces its length. -/
def EncodedLength.Statement (i : Instr) : Prop :=
  i.wellFormed = true ∧ 1 ≤ (encode i).length ∧ (encode i).length ≤ 3 ∧
    ∀ op, (encode i).head? = some op → opcodeLength op = (encode i).length

/-- A register's code is never 110 (10_state.md R21). -/
theorem regFieldOk_code (r : Reg) : regFieldOk r.code = true := by cases r <;> rfl

/-- The statement for an instruction whose encoding is `op` and `n` more bytes. -/
theorem encodedLength_of_head {i : Instr} {op : Byte} {rest : List Byte} (n : Nat) (hw : i.wellFormed = true)
    (he : encode i = op :: rest) (hn : rest.length = n) (hlen : n ≤ 2) (hop : opcodeLength op = n + 1) :
    EncodedLength.Statement i := by
  refine ⟨hw, ?_, ?_, ?_⟩
  · rw [he]; simp
  · rw [he, List.length_cons]; omega
  · intro op' h
    rw [he] at h ⊢
    cases h
    rw [List.length_cons, hn, hop]

theorem EncodedLength.movRR (dst : Reg) (src : Reg) : EncodedLength.Statement (.movRR dst src) :=
  encodedLength_of_head 0 (by cases dst <;> cases src <;> rfl) rfl rfl (by decide) (by cases dst <;> cases src <;> decide)

theorem EncodedLength.movMR (src : Reg) : EncodedLength.Statement (.movMR src) :=
  encodedLength_of_head 0 (by cases src <;> rfl) rfl rfl (by decide) (by cases src <;> decide)

theorem EncodedLength.movRM (dst : Reg) : EncodedLength.Statement (.movRM dst) :=
  encodedLength_of_head 0 (by cases dst <;> rfl) rfl rfl (by decide) (by cases dst <;> decide)

theorem EncodedLength.mviR (dst : Reg) (data : Byte) : EncodedLength.Statement (.mviR dst data) :=
  encodedLength_of_head 1 (by cases dst <;> rfl) rfl rfl (by decide) (by cases dst <;> decide)

theorem EncodedLength.mviM (data : Byte) : EncodedLength.Statement (.mviM data) :=
  encodedLength_of_head 1 rfl rfl rfl (by decide) (by decide)

theorem EncodedLength.lda (addr : Word) : EncodedLength.Statement (.lda addr) :=
  encodedLength_of_head 2 rfl rfl rfl (by decide) (by decide)

theorem EncodedLength.ldaxB : EncodedLength.Statement .ldaxB :=
  encodedLength_of_head 0 rfl rfl rfl (by decide) (by decide)

theorem EncodedLength.ldaxD : EncodedLength.Statement .ldaxD :=
  encodedLength_of_head 0 rfl rfl rfl (by decide) (by decide)

theorem EncodedLength.lhld (addr : Word) : EncodedLength.Statement (.lhld addr) :=
  encodedLength_of_head 2 rfl rfl rfl (by decide) (by decide)

theorem EncodedLength.lxiH (data16 : Word) : EncodedLength.Statement (.lxiH data16) :=
  encodedLength_of_head 2 rfl rfl rfl (by decide) (by decide)

theorem EncodedLength.lxiD (data16 : Word) : EncodedLength.Statement (.lxiD data16) :=
  encodedLength_of_head 2 rfl rfl rfl (by decide) (by decide)

theorem EncodedLength.lxiB (data16 : Word) : EncodedLength.Statement (.lxiB data16) :=
  encodedLength_of_head 2 rfl rfl rfl (by decide) (by decide)

theorem EncodedLength.lxiSp (data16 : Word) : EncodedLength.Statement (.lxiSp data16) :=
  encodedLength_of_head 2 rfl rfl rfl (by decide) (by decide)

theorem EncodedLength.shld (addr : Word) : EncodedLength.Statement (.shld addr) :=
  encodedLength_of_head 2 rfl rfl rfl (by decide) (by decide)

theorem EncodedLength.sta (addr : Word) : EncodedLength.Statement (.sta addr) :=
  encodedLength_of_head 2 rfl rfl rfl (by decide) (by decide)

theorem EncodedLength.staxB : EncodedLength.Statement .staxB :=
  encodedLength_of_head 0 rfl rfl rfl (by decide) (by decide)

theorem EncodedLength.staxD : EncodedLength.Statement .staxD :=
  encodedLength_of_head 0 rfl rfl rfl (by decide) (by decide)

theorem EncodedLength.sphl : EncodedLength.Statement .sphl :=
  encodedLength_of_head 0 rfl rfl rfl (by decide) (by decide)

theorem EncodedLength.xchg : EncodedLength.Statement .xchg :=
  encodedLength_of_head 0 rfl rfl rfl (by decide) (by decide)

theorem EncodedLength.xthl : EncodedLength.Statement .xthl :=
  encodedLength_of_head 0 rfl rfl rfl (by decide) (by decide)

theorem EncodedLength.inPort (port : Byte) : EncodedLength.Statement (.inPort port) :=
  encodedLength_of_head 1 rfl rfl rfl (by decide) (by decide)

theorem EncodedLength.outPort (port : Byte) : EncodedLength.Statement (.outPort port) :=
  encodedLength_of_head 1 rfl rfl rfl (by decide) (by decide)

theorem EncodedLength.hlt : EncodedLength.Statement .hlt :=
  encodedLength_of_head 0 rfl rfl rfl (by decide) (by decide)

theorem EncodedLength.stc : EncodedLength.Statement .stc :=
  encodedLength_of_head 0 rfl rfl rfl (by decide) (by decide)

theorem EncodedLength.cmc : EncodedLength.Statement .cmc :=
  encodedLength_of_head 0 rfl rfl rfl (by decide) (by decide)

theorem EncodedLength.ei : EncodedLength.Statement .ei :=
  encodedLength_of_head 0 rfl rfl rfl (by decide) (by decide)

theorem EncodedLength.di : EncodedLength.Statement .di :=
  encodedLength_of_head 0 rfl rfl rfl (by decide) (by decide)

theorem EncodedLength.nop : EncodedLength.Statement .nop :=
  encodedLength_of_head 0 rfl rfl rfl (by decide) (by decide)

theorem EncodedLength.jmp (addr : Word) : EncodedLength.Statement (.jmp addr) :=
  encodedLength_of_head 2 rfl rfl rfl (by decide) (by decide)

theorem EncodedLength.jc (addr : Word) : EncodedLength.Statement (.jc addr) :=
  encodedLength_of_head 2 rfl rfl rfl (by decide) (by decide)

theorem EncodedLength.jnc (addr : Word) : EncodedLength.Statement (.jnc addr) :=
  encodedLength_of_head 2 rfl rfl rfl (by decide) (by decide)

theorem EncodedLength.jz (addr : Word) : EncodedLength.Statement (.jz addr) :=
  encodedLength_of_head 2 rfl rfl rfl (by decide) (by decide)

theorem EncodedLength.jnz (addr : Word) : EncodedLength.Statement (.jnz addr) :=
  encodedLength_of_head 2 rfl rfl rfl (by decide) (by decide)

theorem EncodedLength.jp (addr : Word) : EncodedLength.Statement (.jp addr) :=
  encodedLength_of_head 2 rfl rfl rfl (by decide) (by decide)

theorem EncodedLength.jm (addr : Word) : EncodedLength.Statement (.jm addr) :=
  encodedLength_of_head 2 rfl rfl rfl (by decide) (by decide)

theorem EncodedLength.jpe (addr : Word) : EncodedLength.Statement (.jpe addr) :=
  encodedLength_of_head 2 rfl rfl rfl (by decide) (by decide)

theorem EncodedLength.jpo (addr : Word) : EncodedLength.Statement (.jpo addr) :=
  encodedLength_of_head 2 rfl rfl rfl (by decide) (by decide)

theorem EncodedLength.pchl : EncodedLength.Statement .pchl :=
  encodedLength_of_head 0 rfl rfl rfl (by decide) (by decide)

theorem EncodedLength.call (addr : Word) : EncodedLength.Statement (.call addr) :=
  encodedLength_of_head 2 rfl rfl rfl (by decide) (by decide)

theorem EncodedLength.cc (addr : Word) : EncodedLength.Statement (.cc addr) :=
  encodedLength_of_head 2 rfl rfl rfl (by decide) (by decide)

theorem EncodedLength.cnc (addr : Word) : EncodedLength.Statement (.cnc addr) :=
  encodedLength_of_head 2 rfl rfl rfl (by decide) (by decide)

theorem EncodedLength.cz (addr : Word) : EncodedLength.Statement (.cz addr) :=
  encodedLength_of_head 2 rfl rfl rfl (by decide) (by decide)

theorem EncodedLength.cnz (addr : Word) : EncodedLength.Statement (.cnz addr) :=
  encodedLength_of_head 2 rfl rfl rfl (by decide) (by decide)

theorem EncodedLength.cp (addr : Word) : EncodedLength.Statement (.cp addr) :=
  encodedLength_of_head 2 rfl rfl rfl (by decide) (by decide)

theorem EncodedLength.cm (addr : Word) : EncodedLength.Statement (.cm addr) :=
  encodedLength_of_head 2 rfl rfl rfl (by decide) (by decide)

theorem EncodedLength.cpe (addr : Word) : EncodedLength.Statement (.cpe addr) :=
  encodedLength_of_head 2 rfl rfl rfl (by decide) (by decide)

theorem EncodedLength.cpo (addr : Word) : EncodedLength.Statement (.cpo addr) :=
  encodedLength_of_head 2 rfl rfl rfl (by decide) (by decide)

theorem EncodedLength.ret : EncodedLength.Statement .ret :=
  encodedLength_of_head 0 rfl rfl rfl (by decide) (by decide)

theorem EncodedLength.rc : EncodedLength.Statement .rc :=
  encodedLength_of_head 0 rfl rfl rfl (by decide) (by decide)

theorem EncodedLength.rnc : EncodedLength.Statement .rnc :=
  encodedLength_of_head 0 rfl rfl rfl (by decide) (by decide)

theorem EncodedLength.rz : EncodedLength.Statement .rz :=
  encodedLength_of_head 0 rfl rfl rfl (by decide) (by decide)

theorem EncodedLength.rnz : EncodedLength.Statement .rnz :=
  encodedLength_of_head 0 rfl rfl rfl (by decide) (by decide)

theorem EncodedLength.rp : EncodedLength.Statement .rp :=
  encodedLength_of_head 0 rfl rfl rfl (by decide) (by decide)

theorem EncodedLength.rm : EncodedLength.Statement .rm :=
  encodedLength_of_head 0 rfl rfl rfl (by decide) (by decide)

theorem EncodedLength.rpe : EncodedLength.Statement .rpe :=
  encodedLength_of_head 0 rfl rfl rfl (by decide) (by decide)

theorem EncodedLength.rpo : EncodedLength.Statement .rpo :=
  encodedLength_of_head 0 rfl rfl rfl (by decide) (by decide)

theorem EncodedLength.rst (vvv : BitVec 3) : EncodedLength.Statement (.rst vvv) :=
  encodedLength_of_head 0 rfl rfl rfl (by decide) (by revert vvv; decide)

theorem EncodedLength.addR (src : Reg) : EncodedLength.Statement (.addR src) :=
  encodedLength_of_head 0 (by cases src <;> rfl) rfl rfl (by decide) (by cases src <;> decide)

theorem EncodedLength.adcR (src : Reg) : EncodedLength.Statement (.adcR src) :=
  encodedLength_of_head 0 (by cases src <;> rfl) rfl rfl (by decide) (by cases src <;> decide)

theorem EncodedLength.addM : EncodedLength.Statement .addM :=
  encodedLength_of_head 0 rfl rfl rfl (by decide) (by decide)

theorem EncodedLength.adcM : EncodedLength.Statement .adcM :=
  encodedLength_of_head 0 rfl rfl rfl (by decide) (by decide)

theorem EncodedLength.adi (data : Byte) : EncodedLength.Statement (.adi data) :=
  encodedLength_of_head 1 rfl rfl rfl (by decide) (by decide)

theorem EncodedLength.aci (data : Byte) : EncodedLength.Statement (.aci data) :=
  encodedLength_of_head 1 rfl rfl rfl (by decide) (by decide)

theorem EncodedLength.dadB : EncodedLength.Statement .dadB :=
  encodedLength_of_head 0 rfl rfl rfl (by decide) (by decide)

theorem EncodedLength.dadD : EncodedLength.Statement .dadD :=
  encodedLength_of_head 0 rfl rfl rfl (by decide) (by decide)

theorem EncodedLength.dadH : EncodedLength.Statement .dadH :=
  encodedLength_of_head 0 rfl rfl rfl (by decide) (by decide)

theorem EncodedLength.dadSp : EncodedLength.Statement .dadSp :=
  encodedLength_of_head 0 rfl rfl rfl (by decide) (by decide)

theorem EncodedLength.subR (src : Reg) : EncodedLength.Statement (.subR src) :=
  encodedLength_of_head 0 (by cases src <;> rfl) rfl rfl (by decide) (by cases src <;> decide)

theorem EncodedLength.sbbR (src : Reg) : EncodedLength.Statement (.sbbR src) :=
  encodedLength_of_head 0 (by cases src <;> rfl) rfl rfl (by decide) (by cases src <;> decide)

theorem EncodedLength.subM : EncodedLength.Statement .subM :=
  encodedLength_of_head 0 rfl rfl rfl (by decide) (by decide)

theorem EncodedLength.sbbM : EncodedLength.Statement .sbbM :=
  encodedLength_of_head 0 rfl rfl rfl (by decide) (by decide)

theorem EncodedLength.sui (data : Byte) : EncodedLength.Statement (.sui data) :=
  encodedLength_of_head 1 rfl rfl rfl (by decide) (by decide)

theorem EncodedLength.sbi (data : Byte) : EncodedLength.Statement (.sbi data) :=
  encodedLength_of_head 1 rfl rfl rfl (by decide) (by decide)

theorem EncodedLength.daa : EncodedLength.Statement .daa :=
  encodedLength_of_head 0 rfl rfl rfl (by decide) (by decide)

theorem EncodedLength.pushB : EncodedLength.Statement .pushB :=
  encodedLength_of_head 0 rfl rfl rfl (by decide) (by decide)

theorem EncodedLength.pushD : EncodedLength.Statement .pushD :=
  encodedLength_of_head 0 rfl rfl rfl (by decide) (by decide)

theorem EncodedLength.pushH : EncodedLength.Statement .pushH :=
  encodedLength_of_head 0 rfl rfl rfl (by decide) (by decide)

theorem EncodedLength.pushPsw : EncodedLength.Statement .pushPsw :=
  encodedLength_of_head 0 rfl rfl rfl (by decide) (by decide)

theorem EncodedLength.popB : EncodedLength.Statement .popB :=
  encodedLength_of_head 0 rfl rfl rfl (by decide) (by decide)

theorem EncodedLength.popD : EncodedLength.Statement .popD :=
  encodedLength_of_head 0 rfl rfl rfl (by decide) (by decide)

theorem EncodedLength.popH : EncodedLength.Statement .popH :=
  encodedLength_of_head 0 rfl rfl rfl (by decide) (by decide)

theorem EncodedLength.popPsw : EncodedLength.Statement .popPsw :=
  encodedLength_of_head 0 rfl rfl rfl (by decide) (by decide)

theorem EncodedLength.anaR (src : Reg) : EncodedLength.Statement (.anaR src) :=
  encodedLength_of_head 0 (by cases src <;> rfl) rfl rfl (by decide) (by cases src <;> decide)

theorem EncodedLength.anaM : EncodedLength.Statement .anaM :=
  encodedLength_of_head 0 rfl rfl rfl (by decide) (by decide)

theorem EncodedLength.ani (data : Byte) : EncodedLength.Statement (.ani data) :=
  encodedLength_of_head 1 rfl rfl rfl (by decide) (by decide)

theorem EncodedLength.xraR (src : Reg) : EncodedLength.Statement (.xraR src) :=
  encodedLength_of_head 0 (by cases src <;> rfl) rfl rfl (by decide) (by cases src <;> decide)

theorem EncodedLength.xraM : EncodedLength.Statement .xraM :=
  encodedLength_of_head 0 rfl rfl rfl (by decide) (by decide)

theorem EncodedLength.xri (data : Byte) : EncodedLength.Statement (.xri data) :=
  encodedLength_of_head 1 rfl rfl rfl (by decide) (by decide)

theorem EncodedLength.oraR (src : Reg) : EncodedLength.Statement (.oraR src) :=
  encodedLength_of_head 0 (by cases src <;> rfl) rfl rfl (by decide) (by cases src <;> decide)

theorem EncodedLength.oraM : EncodedLength.Statement .oraM :=
  encodedLength_of_head 0 rfl rfl rfl (by decide) (by decide)

theorem EncodedLength.ori (data : Byte) : EncodedLength.Statement (.ori data) :=
  encodedLength_of_head 1 rfl rfl rfl (by decide) (by decide)

theorem EncodedLength.cmpR (src : Reg) : EncodedLength.Statement (.cmpR src) :=
  encodedLength_of_head 0 (by cases src <;> rfl) rfl rfl (by decide) (by cases src <;> decide)

theorem EncodedLength.cmpM : EncodedLength.Statement .cmpM :=
  encodedLength_of_head 0 rfl rfl rfl (by decide) (by decide)

theorem EncodedLength.cpi (data : Byte) : EncodedLength.Statement (.cpi data) :=
  encodedLength_of_head 1 rfl rfl rfl (by decide) (by decide)

theorem EncodedLength.cma : EncodedLength.Statement .cma :=
  encodedLength_of_head 0 rfl rfl rfl (by decide) (by decide)

theorem EncodedLength.rlc : EncodedLength.Statement .rlc :=
  encodedLength_of_head 0 rfl rfl rfl (by decide) (by decide)

theorem EncodedLength.rrc : EncodedLength.Statement .rrc :=
  encodedLength_of_head 0 rfl rfl rfl (by decide) (by decide)

theorem EncodedLength.ral : EncodedLength.Statement .ral :=
  encodedLength_of_head 0 rfl rfl rfl (by decide) (by decide)

theorem EncodedLength.rar : EncodedLength.Statement .rar :=
  encodedLength_of_head 0 rfl rfl rfl (by decide) (by decide)

theorem EncodedLength.inrR (reg : Reg) : EncodedLength.Statement (.inrR reg) :=
  encodedLength_of_head 0 (by cases reg <;> rfl) rfl rfl (by decide) (by cases reg <;> decide)

theorem EncodedLength.inrM : EncodedLength.Statement .inrM :=
  encodedLength_of_head 0 rfl rfl rfl (by decide) (by decide)

theorem EncodedLength.inxB : EncodedLength.Statement .inxB :=
  encodedLength_of_head 0 rfl rfl rfl (by decide) (by decide)

theorem EncodedLength.inxD : EncodedLength.Statement .inxD :=
  encodedLength_of_head 0 rfl rfl rfl (by decide) (by decide)

theorem EncodedLength.inxH : EncodedLength.Statement .inxH :=
  encodedLength_of_head 0 rfl rfl rfl (by decide) (by decide)

theorem EncodedLength.inxSp : EncodedLength.Statement .inxSp :=
  encodedLength_of_head 0 rfl rfl rfl (by decide) (by decide)

theorem EncodedLength.dcrR (reg : Reg) : EncodedLength.Statement (.dcrR reg) :=
  encodedLength_of_head 0 (by cases reg <;> rfl) rfl rfl (by decide) (by cases reg <;> decide)

theorem EncodedLength.dcrM : EncodedLength.Statement .dcrM :=
  encodedLength_of_head 0 rfl rfl rfl (by decide) (by decide)

theorem EncodedLength.dcxB : EncodedLength.Statement .dcxB :=
  encodedLength_of_head 0 rfl rfl rfl (by decide) (by decide)

theorem EncodedLength.dcxD : EncodedLength.Statement .dcxD :=
  encodedLength_of_head 0 rfl rfl rfl (by decide) (by decide)

theorem EncodedLength.dcxH : EncodedLength.Statement .dcxH :=
  encodedLength_of_head 0 rfl rfl rfl (by decide) (by decide)

theorem EncodedLength.dcxSp : EncodedLength.Statement .dcxSp :=
  encodedLength_of_head 0 rfl rfl rfl (by decide) (by decide)

end Sys2Proof.Laws
end

