-- ==== Sys2Proof/Tests/Slice0.lean ====
section
/-! SUPPORT. Tests: ill-formed terms the checks refuse, decoding of words written out from the spec's encodings, one step
of instructions against the vectors of spec/95_test_vectors.md, and for every statement with premises a concrete state
that meets them. -/

open Sys2Proof Sys2Proof.Machine

namespace Sys2Proof.Tests

/-! ### Static checks, each with a term it refuses -/

/-- 110 is no register (30_encoding.md R82). -/
theorem test_register_field_110_refused : regFieldOk 0b110 = false ∧ regFieldOk 0b111 = true := by decide

theorem test_instr_wellFormed : (Instr.movRR .a .b).wellFormed = true := by decide

/-- XTHL as an interrupt instruction (60_exceptions.md R294). -/
theorem test_xthl_as_interrupt_refused :
    Instr.xthl.wellFormedAsInterrupt = false ∧ (Instr.rst 7).wellFormedAsInterrupt = true := by decide

theorem test_region_of_no_bytes_refused : (Region.mk 0 0 .rom).wellFormed = false := by decide

theorem test_region_past_the_end_refused :
    (Region.mk 65535 2 .rom).wellFormed = false ∧ (Region.mk 65535 1 .rom).wellFormed = true := by decide

theorem test_overlapping_regions_refused :
    ({ Platform.standard with regions := [⟨0, 16, .rom⟩, ⟨15, 2, .absent⟩] } : Platform).wellFormed = false ∧
      ({ Platform.standard with regions := [⟨0, 16, .rom⟩, ⟨16, 2, .absent⟩] } : Platform).wellFormed = true := by
  decide

/-! ### Decoding: words written out from the `encoding` column of spec/opcode_table.json, one per constructor -/

/-- Each byte string decodes to its instruction, with nothing left over. -/
def decodesAll (words : List (List Byte × Instr)) : Bool :=
  words.all fun w =>
    match decode w.1 with
    | .ok (i, []) => decide (i = w.2)
    | _ => false

/-- Each byte string is refused. -/
def refusesAll (words : List (List Byte)) : Bool :=
  words.all fun w =>
    match decode w with
    | .ok _ => false
    | .error _ => true

theorem test_decode_data_transfer :
    decodesAll
      [([0b01010101], .movRR .d .l), ([0b01110000], .movMR .b), ([0b01100110], .movRM .h),
       ([0b00010110, 0x9C], .mviR .d 0x9C), ([0b00110110, 0x9C], .mviM 0x9C), ([0b00111010, 0x34, 0xF2], .lda 0xF234),
       ([0b00001010], .ldaxB), ([0b00011010], .ldaxD), ([0b00101010, 0x34, 0xF2], .lhld 0xF234),
       ([0b00100001, 0x34, 0xF2], .lxiH 0xF234), ([0b00010001, 0x34, 0xF2], .lxiD 0xF234),
       ([0b00000001, 0x34, 0xF2], .lxiB 0xF234), ([0b00110001, 0x34, 0xF2], .lxiSp 0xF234),
       ([0b00100010, 0x34, 0xF2], .shld 0xF234), ([0b00110010, 0x34, 0xF2], .sta 0xF234), ([0b00000010], .staxB),
       ([0b00010010], .staxD), ([0b11111001], .sphl), ([0b11101011], .xchg), ([0b11100011], .xthl),
       ([0b11011011, 0x9C], .inPort 0x9C), ([0b11010011, 0x9C], .outPort 0x9C)] = true := by
  decide

theorem test_decode_control :
    decodesAll
      [([0b01110110], .hlt), ([0b00110111], .stc), ([0b00111111], .cmc), ([0b11111011], .ei), ([0b11110011], .di),
       ([0b00000000], .nop)] = true := by
  decide

theorem test_decode_branch :
    decodesAll
      [([0b11000011, 0x34, 0xF2], .jmp 0xF234), ([0b11011010, 0x34, 0xF2], .jc 0xF234),
       ([0b11010010, 0x34, 0xF2], .jnc 0xF234), ([0b11001010, 0x34, 0xF2], .jz 0xF234),
       ([0b11000010, 0x34, 0xF2], .jnz 0xF234), ([0b11110010, 0x34, 0xF2], .jp 0xF234),
       ([0b11111010, 0x34, 0xF2], .jm 0xF234), ([0b11101010, 0x34, 0xF2], .jpe 0xF234),
       ([0b11100010, 0x34, 0xF2], .jpo 0xF234), ([0b11101001], .pchl), ([0b11001101, 0x34, 0xF2], .call 0xF234),
       ([0b11011100, 0x34, 0xF2], .cc 0xF234), ([0b11010100, 0x34, 0xF2], .cnc 0xF234),
       ([0b11001100, 0x34, 0xF2], .cz 0xF234), ([0b11000100, 0x34, 0xF2], .cnz 0xF234),
       ([0b11110100, 0x34, 0xF2], .cp 0xF234), ([0b11111100, 0x34, 0xF2], .cm 0xF234),
       ([0b11101100, 0x34, 0xF2], .cpe 0xF234), ([0b11100100, 0x34, 0xF2], .cpo 0xF234), ([0b11001001], .ret),
       ([0b11011000], .rc), ([0b11010000], .rnc), ([0b11001000], .rz), ([0b11000000], .rnz), ([0b11110000], .rp),
       ([0b11111000], .rm), ([0b11101000], .rpe), ([0b11100000], .rpo), ([0b11110111], .rst 6)] = true := by
  decide

theorem test_decode_arithmetic :
    decodesAll
      [([0b10000101], .addR .l), ([0b10001000], .adcR .b), ([0b10000110], .addM), ([0b10001110], .adcM),
       ([0b11000110, 0x9C], .adi 0x9C), ([0b11001110, 0x9C], .aci 0x9C), ([0b00001001], .dadB), ([0b00011001], .dadD),
       ([0b00101001], .dadH), ([0b00111001], .dadSp), ([0b10010000], .subR .b), ([0b10011001], .sbbR .c),
       ([0b10010110], .subM), ([0b10011110], .sbbM), ([0b11010110, 0x9C], .sui 0x9C), ([0b11011110, 0x9C], .sbi 0x9C),
       ([0b00100111], .daa)] = true := by
  decide

theorem test_decode_stack :
    decodesAll
      [([0b11000101], .pushB), ([0b11010101], .pushD), ([0b11100101], .pushH), ([0b11110101], .pushPsw),
       ([0b11000001], .popB), ([0b11010001], .popD), ([0b11100001], .popH), ([0b11110001], .popPsw)] = true := by
  decide

theorem test_decode_logical :
    decodesAll
      [([0b10100101], .anaR .l), ([0b10100110], .anaM), ([0b11100110, 0x9C], .ani 0x9C), ([0b10101101], .xraR .l),
       ([0b10101110], .xraM), ([0b11101110, 0x9C], .xri 0x9C), ([0b10110101], .oraR .l), ([0b10110110], .oraM),
       ([0b11110110, 0x9C], .ori 0x9C), ([0b10111101], .cmpR .l), ([0b10111110], .cmpM), ([0b11111110, 0x9C], .cpi 0x9C),
       ([0b00101111], .cma), ([0b00000111], .rlc), ([0b00001111], .rrc), ([0b00010111], .ral), ([0b00011111], .rar)] = true := by
  decide

theorem test_decode_increment_decrement :
    decodesAll
      [([0b00010100], .inrR .d), ([0b00110100], .inrM), ([0b00000011], .inxB), ([0b00010011], .inxD),
       ([0b00100011], .inxH), ([0b00110011], .inxSp), ([0b00010101], .dcrR .d), ([0b00110101], .dcrM),
       ([0b00001011], .dcxB), ([0b00011011], .dcxD), ([0b00101011], .dcxH), ([0b00111011], .dcxSp)] = true := by
  decide

/-- The twelve of 30_encoding.md R92, and strings that end too soon. -/
theorem test_decode_refuses :
    refusesAll
      [[0x08], [0x10], [0x18], [0x20], [0x28], [0x30], [0x38], [0xCB], [0xD9], [0xDD], [0xED], [0xFD], [], [0x3A],
       [0x3A, 0x50], [0x06]] = true := by
  decide

/-- The table's numbering: the first byte is bits 7 to 0; bits above `nbits` are zero. -/
theorem test_decodeTableWord :
    decodeTableWord 24 0x20503A = some (.lda 0x2050) ∧ decodeTableWord 8 0xFFFFC3 = some (.jmp 0) ∧
      decodeTableWord 8 0x08 = none := by
  decide

/-! ### One step of an instruction (spec/95_test_vectors.md part 2) -/

/-- All of memory zero, pc = 0100H, every register and flag zero. -/
def start : State := { State.reset with pc := 0x0100 }

/-- A byte in memory. -/
def put (s : State) (a : Word) (v : Byte) : State := { s with mem := s.mem.write a v }

/-- What a step that goes on leaves. -/
def leaves (o : Outcome) (p : State → Bool) : Bool :=
  match o with
  | .next t => p t
  | .fault _ => false
  | .refused _ => false

/-- One step with the bytes placed at pc. -/
def runs (s : State) (bytes : List Byte) (p : State → Bool) : Bool := leaves (step (s.placeBytes s.pc bytes)) p

/-- S Z AC P CY. -/
def fl (s z ac p cy : Bool) : Flags := { sign := s, zero := z, ac := ac, parity := p, carry := cy }

/-- No flag set. -/
def fl0 : Flags := fl false false false false false

/-- All five flags set. -/
def fl1 : Flags := fl true true true true true

/-- Only CY set. -/
def flC : Flags := fl false false false false true

/-! #### Data transfer (95_test_vectors.md 2.1) -/

theorem test_mov_b_a :
    (runs { start with a := 0x3C } [0x47] fun t =>
      decide (t.b = 0x3C ∧ t.a = 0x3C ∧ t.pc = 0x0101 ∧ t.clocks = 5)) = true := by decide

theorem test_mov_m_e :
    (runs { start with h := 0x20, e := 0x9D } [0x73] fun t =>
      decide (t.peek 0x2000 = 0x9D ∧ t.clocks = 7)) = true := by decide

theorem test_mov_h_m :
    (runs (put { start with h := 0x20, l := 0xFF } 0x20FF 0x30) [0x66] fun t =>
      decide (t.h = 0x30 ∧ t.l = 0xFF)) = true := by decide

theorem test_mvi_d :
    (runs start [0x16, 0xFF] fun t => decide (t.d = 0xFF ∧ t.pc = 0x0102 ∧ t.clocks = 7)) = true := by decide

theorem test_mvi_m :
    (runs { start with h := 0x3F, l := 0xFF } [0x36, 0xA5] fun t =>
      decide (t.peek 0x3FFF = 0xA5 ∧ t.pc = 0x0102 ∧ t.clocks = 10)) = true := by decide

theorem test_lda_low_byte_first :
    (runs (put start 0x0300 0x42) [0x3A, 0x00, 0x03] fun t =>
      decide (t.a = 0x42 ∧ t.pc = 0x0103 ∧ t.clocks = 13)) = true := by decide

theorem test_ldax_b :
    (runs (put { start with b := 0x12, c := 0x34 } 0x1234 0x77) [0x0A] fun t =>
      decide (t.a = 0x77)) = true := by decide

theorem test_ldax_d :
    (runs (put { start with d := 0x93, e := 0x8B } 0x938B 0x10) [0x1A] fun t =>
      decide (t.a = 0x10)) = true := by decide

theorem test_lhld_wraps :
    (runs (put (put start 0xFFFF 0x34) 0x0000 0x12) [0x2A, 0xFF, 0xFF] fun t =>
      decide (t.l = 0x34 ∧ t.h = 0x12 ∧ t.clocks = 16)) = true := by decide

theorem test_lxi_h :
    (runs start [0x21, 0x03, 0x01] fun t =>
      decide (t.h = 0x01 ∧ t.l = 0x03 ∧ t.pc = 0x0103 ∧ t.clocks = 10)) = true := by decide

theorem test_lxi_d : (runs start [0x11, 0xCD, 0xAB] fun t => decide (t.d = 0xAB ∧ t.e = 0xCD)) = true := by decide

theorem test_lxi_b : (runs start [0x01, 0x34, 0x12] fun t => decide (t.b = 0x12 ∧ t.c = 0x34)) = true := by decide

theorem test_lxi_sp : (runs start [0x31, 0xFF, 0x3F] fun t => decide (t.sp = 0x3FFF)) = true := by decide

theorem test_shld_wraps :
    (runs { start with h := 0xAE, l := 0x29 } [0x22, 0xFF, 0xFF] fun t =>
      decide (t.peek 0xFFFF = 0x29 ∧ t.peek 0x0000 = 0xAE)) = true := by decide

theorem test_sta :
    (runs { start with a := 0xE1 } [0x32, 0xB3, 0x05] fun t =>
      decide (t.peek 0x05B3 = 0xE1 ∧ t.clocks = 13)) = true := by decide

theorem test_stax_b :
    (runs { start with a := 0x55, b := 0x3F, c := 0x16 } [0x02] fun t =>
      decide (t.peek 0x3F16 = 0x55)) = true := by decide

theorem test_stax_d :
    (runs { start with a := 0x66, d := 0x40, e := 0x00 } [0x12] fun t =>
      decide (t.peek 0x4000 = 0x66)) = true := by decide

theorem test_sphl :
    (runs { start with h := 0x50, l := 0x6C } [0xF9] fun t =>
      decide (t.sp = 0x506C ∧ t.hl = 0x506C ∧ t.clocks = 5)) = true := by decide

theorem test_xchg :
    (runs { start with d := 0x33, e := 0x55, l := 0xFF } [0xEB] fun t =>
      decide (t.de = 0x00FF ∧ t.hl = 0x3355 ∧ t.clocks = 4)) = true := by decide

theorem test_xthl_wraps :
    (runs (put (put { start with sp := 0xFFFF, h := 0x11, l := 0x22 } 0xFFFF 0xAA) 0x0000 0xBB) [0xE3] fun t =>
      decide (t.hl = 0xBBAA ∧ t.peek 0xFFFF = 0x22 ∧ t.peek 0x0000 = 0x11 ∧ t.sp = 0xFFFF ∧ t.clocks = 18)) = true := by decide

theorem test_in :
    (runs { start with flags := fl false true false false false, answers := [0x80] } [0xDB, 0x07] fun t =>
      decide (t.a = 0x80 ∧ t.flags = fl false true false false false ∧ t.pc = 0x0102)) = true := by decide

theorem test_out :
    (runs { start with a := 0x41 } [0xD3, 0x10] fun t =>
      decide (t.outputs = [(0x10, 0x41)] ∧ t.a = 0x41 ∧ t.pc = 0x0102)) = true := by decide

/-! #### Control -/

theorem test_hlt :
    (runs start [0x76] fun t => decide (t.halted = true ∧ t.pc = 0x0101 ∧ t.clocks = 7)) = true := by decide

theorem test_stc :
    (runs { start with flags := fl false true false false false } [0x37] fun t =>
      decide (t.flags = fl false true false false true)) = true := by decide

theorem test_cmc :
    (runs { start with flags := fl false false true false false } [0x3F] fun t =>
      decide (t.flags = fl false false true false true)) = true := by decide

theorem test_cmc_clears :
    (runs { start with flags := flC } [0x3F] fun t => decide (t.flags = fl0)) = true := by decide

theorem test_ei : (runs start [0xFB] fun t => decide (t.inte = true ∧ t.eiInhibit = true)) = true := by decide

theorem test_di :
    (runs { start with inte := true } [0xF3] fun t =>
      decide (t.inte = false ∧ t.eiInhibit = false)) = true := by decide

theorem test_nop_wraps_pc :
    (runs { start with pc := 0xFFFF } [0x00] fun t => decide (t.pc = 0x0000 ∧ t.clocks = 4)) = true := by decide

/-! #### Branch: each condition true and false -/

theorem test_jmp : (runs start [0xC3, 0x00, 0x3E] fun t => decide (t.pc = 0x3E00 ∧ t.clocks = 10)) = true := by decide

theorem test_jnz :
    (runs { start with flags := fl0 } [0xC2, 0x00, 0x20] fun t => decide (t.pc = 0x2000)) = true ∧
      (runs { start with flags := fl false true false false false } [0xC2, 0x00, 0x20] fun t =>
        decide (t.pc = 0x0103)) = true := by decide

theorem test_jz :
    (runs { start with flags := fl false true false false false } [0xCA, 0x00, 0x20] fun t =>
        decide (t.pc = 0x2000)) = true ∧
      (runs { start with flags := fl0 } [0xCA, 0x00, 0x20] fun t => decide (t.pc = 0x0103)) = true := by decide

theorem test_jnc :
    (runs { start with flags := fl0 } [0xD2, 0x00, 0x20] fun t => decide (t.pc = 0x2000)) = true ∧
      (runs { start with flags := flC } [0xD2, 0x00, 0x20] fun t => decide (t.pc = 0x0103)) = true := by decide

theorem test_jc :
    (runs { start with flags := flC } [0xDA, 0x00, 0x20] fun t => decide (t.pc = 0x2000)) = true ∧
      (runs { start with flags := fl0 } [0xDA, 0x00, 0x20] fun t => decide (t.pc = 0x0103)) = true := by decide

theorem test_jpo :
    (runs { start with flags := fl0 } [0xE2, 0x00, 0x20] fun t => decide (t.pc = 0x2000)) = true ∧
      (runs { start with flags := fl false false false true false } [0xE2, 0x00, 0x20] fun t =>
        decide (t.pc = 0x0103)) = true := by decide

theorem test_jpe :
    (runs { start with flags := fl false false false true false } [0xEA, 0x00, 0x20] fun t =>
        decide (t.pc = 0x2000)) = true ∧
      (runs { start with flags := fl0 } [0xEA, 0x00, 0x20] fun t => decide (t.pc = 0x0103)) = true := by decide

theorem test_jp :
    (runs { start with flags := fl0 } [0xF2, 0x00, 0x20] fun t => decide (t.pc = 0x2000)) = true ∧
      (runs { start with flags := fl true false false false false } [0xF2, 0x00, 0x20] fun t =>
        decide (t.pc = 0x0103)) = true := by decide

theorem test_jm :
    (runs { start with flags := fl true false false false false } [0xFA, 0x00, 0x20] fun t =>
        decide (t.pc = 0x2000)) = true ∧
      (runs { start with flags := fl0 } [0xFA, 0x00, 0x20] fun t => decide (t.pc = 0x0103)) = true := by decide

theorem test_pchl :
    (runs { start with h := 0x41, l := 0x3E } [0xE9] fun t =>
      decide (t.pc = 0x413E ∧ t.clocks = 5)) = true := by decide

theorem test_call_wraps :
    (runs { start with pc := 0xFFFE, sp := 0x3000 } [0xCD, 0x00, 0x2F] fun t =>
      decide (t.peek 0x2FFF = 0x00 ∧ t.peek 0x2FFE = 0x01 ∧ t.sp = 0x2FFE ∧ t.pc = 0x2F00 ∧ t.clocks = 17)) = true := by decide

theorem test_cnz :
    (runs { start with sp := 0x3000, flags := fl0 } [0xC4, 0x00, 0x2F] fun t =>
        decide (t.peek 0x2FFF = 0x01 ∧ t.peek 0x2FFE = 0x03 ∧ t.sp = 0x2FFE ∧ t.pc = 0x2F00 ∧ t.clocks = 17)) = true ∧
      (runs { start with sp := 0x3000, flags := fl false true false false false } [0xC4, 0x00, 0x2F] fun t =>
        decide (t.pc = 0x0103 ∧ t.sp = 0x3000 ∧ t.clocks = 11)) = true := by decide

theorem test_cz :
    (runs { start with sp := 0x3000, flags := fl false true false false false } [0xCC, 0x00, 0x2F] fun t =>
        decide (t.peek 0x2FFF = 0x01 ∧ t.peek 0x2FFE = 0x03 ∧ t.sp = 0x2FFE ∧ t.pc = 0x2F00 ∧ t.clocks = 17)) = true ∧
      (runs { start with sp := 0x3000, flags := fl0 } [0xCC, 0x00, 0x2F] fun t =>
        decide (t.pc = 0x0103 ∧ t.sp = 0x3000 ∧ t.clocks = 11)) = true := by decide

theorem test_cnc :
    (runs { start with sp := 0x3000, flags := fl0 } [0xD4, 0x00, 0x2F] fun t =>
        decide (t.peek 0x2FFF = 0x01 ∧ t.peek 0x2FFE = 0x03 ∧ t.sp = 0x2FFE ∧ t.pc = 0x2F00 ∧ t.clocks = 17)) = true ∧
      (runs { start with sp := 0x3000, flags := flC } [0xD4, 0x00, 0x2F] fun t =>
        decide (t.pc = 0x0103 ∧ t.sp = 0x3000 ∧ t.clocks = 11)) = true := by decide

theorem test_cc :
    (runs { start with sp := 0x3000, flags := flC } [0xDC, 0x00, 0x2F] fun t =>
        decide (t.peek 0x2FFF = 0x01 ∧ t.peek 0x2FFE = 0x03 ∧ t.sp = 0x2FFE ∧ t.pc = 0x2F00 ∧ t.clocks = 17)) = true ∧
      (runs { start with sp := 0x3000, flags := fl0 } [0xDC, 0x00, 0x2F] fun t =>
        decide (t.pc = 0x0103 ∧ t.sp = 0x3000 ∧ t.clocks = 11)) = true := by decide

theorem test_cpo :
    (runs { start with sp := 0x3000, flags := fl0 } [0xE4, 0x00, 0x2F] fun t =>
        decide (t.peek 0x2FFF = 0x01 ∧ t.peek 0x2FFE = 0x03 ∧ t.sp = 0x2FFE ∧ t.pc = 0x2F00 ∧ t.clocks = 17)) = true ∧
      (runs { start with sp := 0x3000, flags := fl false false false true false } [0xE4, 0x00, 0x2F] fun t =>
        decide (t.pc = 0x0103 ∧ t.sp = 0x3000 ∧ t.clocks = 11)) = true := by decide

theorem test_cpe :
    (runs { start with sp := 0x3000, flags := fl false false false true false } [0xEC, 0x00, 0x2F] fun t =>
        decide (t.peek 0x2FFF = 0x01 ∧ t.peek 0x2FFE = 0x03 ∧ t.sp = 0x2FFE ∧ t.pc = 0x2F00 ∧ t.clocks = 17)) = true ∧
      (runs { start with sp := 0x3000, flags := fl0 } [0xEC, 0x00, 0x2F] fun t =>
        decide (t.pc = 0x0103 ∧ t.sp = 0x3000 ∧ t.clocks = 11)) = true := by decide

theorem test_cp :
    (runs { start with sp := 0x3000, flags := fl0 } [0xF4, 0x00, 0x2F] fun t =>
        decide (t.peek 0x2FFF = 0x01 ∧ t.peek 0x2FFE = 0x03 ∧ t.sp = 0x2FFE ∧ t.pc = 0x2F00 ∧ t.clocks = 17)) = true ∧
      (runs { start with sp := 0x3000, flags := fl true false false false false } [0xF4, 0x00, 0x2F] fun t =>
        decide (t.pc = 0x0103 ∧ t.sp = 0x3000 ∧ t.clocks = 11)) = true := by decide

theorem test_cm :
    (runs { start with sp := 0x3000, flags := fl true false false false false } [0xFC, 0x00, 0x2F] fun t =>
        decide (t.peek 0x2FFF = 0x01 ∧ t.peek 0x2FFE = 0x03 ∧ t.sp = 0x2FFE ∧ t.pc = 0x2F00 ∧ t.clocks = 17)) = true ∧
      (runs { start with sp := 0x3000, flags := fl0 } [0xFC, 0x00, 0x2F] fun t =>
        decide (t.pc = 0x0103 ∧ t.sp = 0x3000 ∧ t.clocks = 11)) = true := by decide

theorem test_ret_wraps :
    (runs (put (put { start with sp := 0xFFFF } 0xFFFF 0x34) 0x0000 0x12) [0xC9] fun t =>
      decide (t.pc = 0x1234 ∧ t.sp = 0x0001 ∧ t.clocks = 10)) = true := by decide

theorem test_rnz :
    (runs (put (put { start with sp := 0x2FFE, flags := fl0 } 0x2FFE 0x03) 0x2FFF 0x02) [0xC0] fun t =>
        decide (t.pc = 0x0203 ∧ t.sp = 0x3000 ∧ t.clocks = 11)) = true ∧
      (runs { start with sp := 0x2FFE, flags := fl false true false false false } [0xC0] fun t =>
        decide (t.pc = 0x0101 ∧ t.sp = 0x2FFE ∧ t.clocks = 5)) = true := by decide

theorem test_rz :
    (runs (put (put { start with sp := 0x2FFE, flags := fl false true false false false } 0x2FFE 0x03) 0x2FFF 0x02) [0xC8] fun t =>
        decide (t.pc = 0x0203 ∧ t.sp = 0x3000 ∧ t.clocks = 11)) = true ∧
      (runs { start with sp := 0x2FFE, flags := fl0 } [0xC8] fun t =>
        decide (t.pc = 0x0101 ∧ t.sp = 0x2FFE ∧ t.clocks = 5)) = true := by decide

theorem test_rnc :
    (runs (put (put { start with sp := 0x2FFE, flags := fl0 } 0x2FFE 0x03) 0x2FFF 0x02) [0xD0] fun t =>
        decide (t.pc = 0x0203 ∧ t.sp = 0x3000 ∧ t.clocks = 11)) = true ∧
      (runs { start with sp := 0x2FFE, flags := flC } [0xD0] fun t =>
        decide (t.pc = 0x0101 ∧ t.sp = 0x2FFE ∧ t.clocks = 5)) = true := by decide

theorem test_rc :
    (runs (put (put { start with sp := 0x2FFE, flags := flC } 0x2FFE 0x03) 0x2FFF 0x02) [0xD8] fun t =>
        decide (t.pc = 0x0203 ∧ t.sp = 0x3000 ∧ t.clocks = 11)) = true ∧
      (runs { start with sp := 0x2FFE, flags := fl0 } [0xD8] fun t =>
        decide (t.pc = 0x0101 ∧ t.sp = 0x2FFE ∧ t.clocks = 5)) = true := by decide

theorem test_rpo :
    (runs (put (put { start with sp := 0x2FFE, flags := fl0 } 0x2FFE 0x03) 0x2FFF 0x02) [0xE0] fun t =>
        decide (t.pc = 0x0203 ∧ t.sp = 0x3000 ∧ t.clocks = 11)) = true ∧
      (runs { start with sp := 0x2FFE, flags := fl false false false true false } [0xE0] fun t =>
        decide (t.pc = 0x0101 ∧ t.sp = 0x2FFE ∧ t.clocks = 5)) = true := by decide

theorem test_rpe :
    (runs (put (put { start with sp := 0x2FFE, flags := fl false false false true false } 0x2FFE 0x03) 0x2FFF 0x02) [0xE8] fun t =>
        decide (t.pc = 0x0203 ∧ t.sp = 0x3000 ∧ t.clocks = 11)) = true ∧
      (runs { start with sp := 0x2FFE, flags := fl0 } [0xE8] fun t =>
        decide (t.pc = 0x0101 ∧ t.sp = 0x2FFE ∧ t.clocks = 5)) = true := by decide

theorem test_rp :
    (runs (put (put { start with sp := 0x2FFE, flags := fl0 } 0x2FFE 0x03) 0x2FFF 0x02) [0xF0] fun t =>
        decide (t.pc = 0x0203 ∧ t.sp = 0x3000 ∧ t.clocks = 11)) = true ∧
      (runs { start with sp := 0x2FFE, flags := fl true false false false false } [0xF0] fun t =>
        decide (t.pc = 0x0101 ∧ t.sp = 0x2FFE ∧ t.clocks = 5)) = true := by decide

theorem test_rm :
    (runs (put (put { start with sp := 0x2FFE, flags := fl true false false false false } 0x2FFE 0x03) 0x2FFF 0x02) [0xF8] fun t =>
        decide (t.pc = 0x0203 ∧ t.sp = 0x3000 ∧ t.clocks = 11)) = true ∧
      (runs { start with sp := 0x2FFE, flags := fl0 } [0xF8] fun t =>
        decide (t.pc = 0x0101 ∧ t.sp = 0x2FFE ∧ t.clocks = 5)) = true := by decide

theorem test_rst_5 :
    (runs { start with pc := 0x1234, sp := 0x3000 } [0xEF] fun t =>
      decide (t.peek 0x2FFF = 0x12 ∧ t.peek 0x2FFE = 0x35 ∧ t.sp = 0x2FFE ∧ t.pc = 0x0028 ∧ t.clocks = 11)) = true := by decide

/-! #### Arithmetic -/

theorem test_add_d :
    (runs { start with a := 0x6C, d := 0x2E } [0x82] fun t =>
      decide (t.a = 0x9A ∧ t.flags = fl true false true true false ∧ t.clocks = 4)) = true := by decide

theorem test_add_a :
    (runs { start with a := 0x80 } [0x87] fun t =>
      decide (t.a = 0x00 ∧ t.flags = fl false true false true true)) = true := by decide

theorem test_adc_c :
    (runs { start with a := 0x3D, c := 0x42, flags := flC } [0x89] fun t =>
      decide (t.a = 0x80 ∧ t.flags = fl true false true false false)) = true := by decide

theorem test_adc_a :
    (runs { start with a := 0xFF, flags := flC } [0x8F] fun t =>
      decide (t.a = 0xFF ∧ t.flags = fl true false true true true)) = true := by decide

theorem test_add_m :
    (runs (put { start with a := 0xFF, h := 0x20 } 0x2000 0x01) [0x86] fun t =>
      decide (t.a = 0x00 ∧ t.flags = fl false true true true true ∧ t.clocks = 7)) = true := by decide

theorem test_adc_m :
    (runs (put { start with a := 0x7F, h := 0x20, flags := flC } 0x2000 0x80) [0x8E] fun t =>
      decide (t.a = 0x00 ∧ t.flags = fl false true true true true)) = true := by decide

theorem test_adi :
    (runs { start with a := 0x14 } [0xC6, 0x42] fun t =>
      decide (t.a = 0x56 ∧ t.flags = fl false false false true false)) = true := by decide

theorem test_aci :
    (runs { start with a := 0x14, flags := flC } [0xCE, 0x42] fun t =>
      decide (t.a = 0x57 ∧ t.flags = fl0)) = true := by decide

theorem test_dad_b :
    (runs { start with h := 0xA1, l := 0x7B, b := 0x33, c := 0x9F, flags := fl false true false false false } [0x09] fun t =>
      decide (t.hl = 0xD51A ∧ t.flags = fl false true false false false ∧ t.clocks = 10)) = true := by decide

theorem test_dad_d :
    (runs { start with h := 0xFF, l := 0xFF, e := 0x01 } [0x19] fun t =>
      decide (t.hl = 0x0000 ∧ t.flags = flC)) = true := by decide

theorem test_dad_h :
    (runs { start with h := 0x12, l := 0x34 } [0x29] fun t =>
      decide (t.hl = 0x2468 ∧ t.flags = fl0)) = true := by decide

theorem test_dad_sp :
    (runs { start with sp := 0x3FFE, flags := flC } [0x39] fun t =>
      decide (t.hl = 0x3FFE ∧ t.flags = fl0)) = true := by decide

theorem test_sub_b :
    (runs { start with a := 0x80, b := 0x01 } [0x90] fun t => decide (t.a = 0x7F ∧ t.flags = fl0)) = true := by decide

theorem test_sub_a :
    (runs { start with a := 0x3E, flags := flC } [0x97] fun t =>
      decide (t.a = 0x00 ∧ t.flags = fl false true true true false)) = true := by decide

theorem test_sbb_l :
    (runs { start with a := 0x04, l := 0x02, flags := flC } [0x9D] fun t =>
      decide (t.a = 0x01 ∧ t.flags = fl false false true false false)) = true := by decide

theorem test_sbb_b :
    (runs { start with a := 0x00, b := 0xFF, flags := flC } [0x98] fun t =>
      decide (t.a = 0x00 ∧ t.flags = fl false true false true true)) = true := by decide

theorem test_sub_m :
    (runs (put { start with a := 0x05, h := 0x20 } 0x2000 0x06) [0x96] fun t =>
      decide (t.a = 0xFF ∧ t.flags = fl true false false true true)) = true := by decide

theorem test_sbb_m :
    (runs (put { start with a := 0x10, h := 0x20, flags := flC } 0x2000 0x0F) [0x9E] fun t =>
      decide (t.a = 0x00 ∧ t.flags = fl false true false true false)) = true := by decide

theorem test_sui :
    (runs start [0xD6, 0x01] fun t =>
      decide (t.a = 0xFF ∧ t.flags = fl true false false true true)) = true := by decide

theorem test_sbi :
    (runs { start with flags := flC } [0xDE, 0x01] fun t =>
      decide (t.a = 0xFE ∧ t.flags = fl true false false false true)) = true := by decide

theorem test_daa_both_digits :
    (runs { start with a := 0x9B } [0x27] fun t =>
      decide (t.a = 0x01 ∧ t.flags = fl false false true false true)) = true := by decide

theorem test_daa_keeps_carry :
    (runs { start with a := 0xFF, flags := fl false false true false true } [0x27] fun t =>
      decide (t.a = 0x65 ∧ t.flags = fl false false true true true)) = true := by decide

/-! #### Stack -/

theorem test_push_b :
    (runs { start with b := 0x8F, c := 0x9D, sp := 0x3A2C } [0xC5] fun t =>
      decide (t.peek 0x3A2B = 0x8F ∧ t.peek 0x3A2A = 0x9D ∧ t.sp = 0x3A2A ∧ t.clocks = 11)) = true := by decide

theorem test_push_d_wraps :
    (runs { start with d := 0x12, e := 0x34, sp := 0x0001 } [0xD5] fun t =>
      decide (t.peek 0x0000 = 0x12 ∧ t.peek 0xFFFF = 0x34 ∧ t.sp = 0xFFFF)) = true := by decide

theorem test_push_h :
    (runs { start with h := 0xAB, l := 0xCD } [0xE5] fun t =>
      decide (t.peek 0xFFFF = 0xAB ∧ t.peek 0xFFFE = 0xCD ∧ t.sp = 0xFFFE)) = true := by decide

theorem test_push_psw :
    (runs { start with a := 0x1F, sp := 0x502A, flags := fl false true false true true } [0xF5] fun t =>
      decide (t.peek 0x5029 = 0x1F ∧ t.peek 0x5028 = 0x47 ∧ t.sp = 0x5028)) = true := by decide

theorem test_push_psw_no_flag :
    (runs { start with a := 0xFF, sp := 0x2000 } [0xF5] fun t =>
      decide (t.peek 0x1FFF = 0xFF ∧ t.peek 0x1FFE = 0x02)) = true := by decide

theorem test_pop_b :
    (runs (put (put { start with sp := 0x1239 } 0x1239 0x3D) 0x123A 0x93) [0xC1] fun t =>
      decide (t.b = 0x93 ∧ t.c = 0x3D ∧ t.sp = 0x123B ∧ t.clocks = 10)) = true := by decide

theorem test_pop_d :
    (runs (put (put { start with sp := 0x2000 } 0x2000 0x11) 0x2001 0x22) [0xD1] fun t =>
      decide (t.d = 0x22 ∧ t.e = 0x11)) = true := by decide

theorem test_pop_h_wraps :
    (runs (put (put { start with sp := 0xFFFF } 0xFFFF 0x3D) 0x0000 0x93) [0xE1] fun t =>
      decide (t.h = 0x93 ∧ t.l = 0x3D ∧ t.sp = 0x0001)) = true := by decide

theorem test_pop_psw :
    (runs (put (put { start with sp := 0x2C00 } 0x2C00 0xC3) 0x2C01 0xFF) [0xF1] fun t =>
      decide (t.a = 0xFF ∧ t.flags = fl true true false false true ∧ t.sp = 0x2C02)) = true := by decide

/-! #### Logical (ANA_AC_RULE = or_bit3) -/

theorem test_ana_c :
    (runs { start with a := 0xFC, c := 0x0F, flags := flC } [0xA1] fun t =>
      decide (t.a = 0x0C ∧ t.flags = fl false false true true false)) = true := by decide

theorem test_ana_b :
    (runs { start with a := 0xF7, b := 0xF7 } [0xA0] fun t =>
      decide (t.a = 0xF7 ∧ t.flags = fl true false false false false)) = true := by decide

theorem test_ana_m :
    (runs (put { start with a := 0xFF, h := 0x20 } 0x2000 0x80) [0xA6] fun t =>
      decide (t.a = 0x80 ∧ t.flags = fl true false true false false)) = true := by decide

theorem test_ani :
    (runs { start with a := 0x3A } [0xE6, 0x0F] fun t =>
      decide (t.a = 0x0A ∧ t.flags = fl false false true true false)) = true := by decide

theorem test_xra_a :
    (runs { start with a := 0x5A, flags := fl1 } [0xAF] fun t =>
      decide (t.a = 0x00 ∧ t.flags = fl false true false true false)) = true := by decide

theorem test_xra_m :
    (runs (put { start with a := 0x5C, h := 0x20 } 0x2000 0x78) [0xAE] fun t =>
      decide (t.a = 0x24 ∧ t.flags = fl false false false true false)) = true := by decide

theorem test_xri :
    (runs { start with a := 0x3B, flags := flC } [0xEE, 0x81] fun t =>
      decide (t.a = 0xBA ∧ t.flags = fl true false false false false)) = true := by decide

theorem test_ora_c :
    (runs { start with a := 0x33, c := 0x0F, flags := fl false false true false true } [0xB1] fun t =>
      decide (t.a = 0x3F ∧ t.flags = fl false false false true false)) = true := by decide

theorem test_ora_m :
    (runs (put { start with a := 0x80, h := 0x20 } 0x2000 0x01) [0xB6] fun t =>
      decide (t.a = 0x81 ∧ t.flags = fl true false false true false)) = true := by decide

theorem test_ori :
    (runs { start with a := 0xB5 } [0xF6, 0x0F] fun t =>
      decide (t.a = 0xBF ∧ t.flags = fl true false false false false)) = true := by decide

theorem test_cmp_e :
    (runs { start with a := 0x02, e := 0x05 } [0xBB] fun t =>
      decide (t.a = 0x02 ∧ t.flags = fl true false false false true)) = true := by decide

theorem test_cmp_a :
    (runs { start with a := 0x77, flags := flC } [0xBF] fun t =>
      decide (t.a = 0x77 ∧ t.flags = fl false true true true false)) = true := by decide

theorem test_cmp_m :
    (runs (put { start with a := 0x40, h := 0x20 } 0x2000 0x40) [0xBE] fun t =>
      decide (t.a = 0x40 ∧ t.flags = fl false true true true false)) = true := by decide

theorem test_cpi :
    (runs { start with a := 0x40 } [0xFE, 0x4A] fun t =>
      decide (t.a = 0x40 ∧ t.flags = fl true false false true true)) = true := by decide

theorem test_cma :
    (runs { start with a := 0x51, flags := fl1 } [0x2F] fun t =>
      decide (t.a = 0xAE ∧ t.flags = fl1)) = true := by decide

theorem test_rlc :
    (runs { start with a := 0xF2, flags := fl false true false false false } [0x07] fun t =>
      decide (t.a = 0xE5 ∧ t.flags = fl false true false false true)) = true := by decide

theorem test_rrc :
    (runs { start with a := 0xF2, flags := flC } [0x0F] fun t =>
      decide (t.a = 0x79 ∧ t.flags = fl0)) = true := by decide

theorem test_ral :
    (runs { start with a := 0x80, flags := flC } [0x17] fun t =>
      decide (t.a = 0x01 ∧ t.flags = flC)) = true := by decide

theorem test_rar :
    (runs { start with a := 0x6A, flags := flC } [0x1F] fun t =>
      decide (t.a = 0xB5 ∧ t.flags = fl0)) = true := by decide

/-! #### Increment and decrement -/

theorem test_inr_c :
    (runs { start with c := 0x99, flags := flC } [0x0C] fun t =>
      decide (t.c = 0x9A ∧ t.flags = fl true false false true true ∧ t.clocks = 5)) = true := by decide

theorem test_inr_a_wraps :
    (runs { start with a := 0xFF } [0x3C] fun t =>
      decide (t.a = 0x00 ∧ t.flags = fl false true true true false)) = true := by decide

theorem test_inr_m :
    (runs (put { start with h := 0x20, flags := flC } 0x2000 0xFF) [0x34] fun t =>
      decide (t.peek 0x2000 = 0x00 ∧ t.flags = fl false true true true true ∧ t.clocks = 10)) = true := by decide

theorem test_dcr_b :
    (runs { start with b := 0x01, flags := flC } [0x05] fun t =>
      decide (t.b = 0x00 ∧ t.flags = fl false true true true true)) = true := by decide

theorem test_dcr_b_wraps :
    (runs start [0x05] fun t => decide (t.b = 0xFF ∧ t.flags = fl true false false true false)) = true := by decide

theorem test_dcr_m :
    (runs (put { start with h := 0x3A, l := 0x7C } 0x3A7C 0x40) [0x35] fun t =>
      decide (t.peek 0x3A7C = 0x3F ∧ t.flags = fl false false false true false)) = true := by decide

theorem test_inx_b :
    (runs { start with c := 0xFF, flags := fl false true false false false } [0x03] fun t =>
      decide (t.bc = 0x0100 ∧ t.flags = fl false true false false false ∧ t.clocks = 5)) = true := by decide

theorem test_inx_d :
    (runs { start with d := 0x01, e := 0xFF } [0x13] fun t => decide (t.de = 0x0200)) = true := by decide

theorem test_inx_h_wraps :
    (runs { start with h := 0xFF, l := 0xFF } [0x23] fun t =>
      decide (t.hl = 0x0000 ∧ t.flags = fl0)) = true := by decide

theorem test_inx_sp_wraps :
    (runs { start with sp := 0xFFFF } [0x33] fun t => decide (t.sp = 0x0000)) = true := by decide

theorem test_dcx_b :
    (runs { start with c := 0x01 } [0x0B] fun t => decide (t.bc = 0x0000 ∧ t.flags = fl0)) = true := by decide

theorem test_dcx_d : (runs { start with d := 0x01 } [0x1B] fun t => decide (t.de = 0x00FF)) = true := by decide

theorem test_dcx_h : (runs { start with h := 0x98 } [0x2B] fun t => decide (t.hl = 0x97FF)) = true := by decide

theorem test_dcx_sp_wraps : (runs start [0x3B] fun t => decide (t.sp = 0xFFFF)) = true := by decide
/-! #### The parameters of 00_scope.md R8 -/

/-- ANA C of A=FC, C=0F under the three rules (95_test_vectors.md 2.6). -/
theorem test_ana_ac_rules :
    (runs { start with a := 0xFC, c := 0x0F, platform := { Platform.standard with anaAc := .zero } } [0xA1]
      fun t => decide (t.flags.ac = false)) = true ∧
      (runs { start with a := 0xF7, b := 0xF7, platform := { Platform.standard with anaAc := .one } } [0xA0]
        fun t => decide (t.flags.ac = true)) = true := by
  decide

theorem test_unassigned_fetched_refused :
    step (put start 0x0100 0x08) = .refused (.unassignedOpcode 0x08) := rfl

/-- Under `alias_8080A` CBH acts as JMP (93_implementation_defined.md U1). -/
theorem test_unassigned_alias :
    (runs { start with platform := { Platform.standard with unassigned := .alias8080A } } [0xCB, 0x00, 0x20]
      fun t => decide (t.pc = 0x2000)) = true := by decide

/-- A write to read-only memory is ignored (20_memory.md R58). -/
theorem test_write_to_rom :
    (runs { start with a := 0xE1, platform := { Platform.standard with regions := [⟨0x0500, 0x100, .rom⟩] } }
      [0x32, 0xB3, 0x05] fun t => decide (t.peek 0x05B3 = 0x00 ∧ t.pc = 0x0103)) = true := by decide

/-! #### Interrupt, halt, Reset, Hold, READY, the bus (95_test_vectors.md 2.8) -/

/-- The common start of the vectors, the device supplying `bytes`. -/
def asked (bytes : List Byte) : State :=
  { State.reset with
    pc := 0x1234, sp := 0x2000, b := 0x0F, flags := flC, inte := true
    pins := [{ reset := false, hold := none, int := some bytes }] }

theorem test_interrupt_rst_2 :
    (leaves (step (asked [0xD7])) fun t =>
      decide (t.peek 0x1FFF = 0x12 ∧ t.peek 0x1FFE = 0x34 ∧ t.sp = 0x1FFE ∧ t.pc = 0x0010 ∧ t.inte = false)) = true := by
  decide

theorem test_interrupt_call :
    (leaves (step (asked [0xCD, 0x00, 0x30])) fun t =>
      decide (t.peek 0x1FFF = 0x12 ∧ t.peek 0x1FFE = 0x34 ∧ t.sp = 0x1FFE ∧ t.pc = 0x3000 ∧ t.inte = false)) = true := by
  decide

theorem test_interrupt_inr_b :
    (leaves (step (asked [0x04])) fun t =>
      decide (t.b = 0x10 ∧ t.flags = fl false false true false true ∧ t.pc = 0x1234 ∧ t.inte = false)) = true := by decide

theorem test_interrupt_ei :
    (leaves (step (asked [0xFB])) fun t => decide (t.inte = true ∧ t.eiInhibit = true ∧ t.pc = 0x1234)) = true := by
  decide

theorem test_interrupt_hlt :
    (leaves (step (asked [0x76])) fun t => decide (t.halted = true ∧ t.inte = false ∧ t.pc = 0x1234)) = true := by decide

theorem test_interrupt_xthl : step (asked [0xE3]) = .refused .xthlAsInterruptInstruction := rfl

theorem test_interrupt_unassigned : step (asked [0x08]) = .refused (.unassignedOpcode 0x08) := rfl

/-- INTE = 0, or `ei_inhibit` = 1: the instruction at pc (NOP) runs instead. -/
theorem test_interrupt_not_accepted :
    (leaves (step { asked [0xD7] with inte := false }) fun t => decide (t.pc = 0x1235)) = true ∧
      (leaves (step { asked [0xD7] with eiInhibit := true }) fun t =>
        decide (t.pc = 0x1235 ∧ t.eiInhibit = false)) = true := by decide

/-- Accepted while halted: status 2BH, then the two stack writes. -/
theorem test_interrupt_from_halt :
    (leaves (step { asked [0xD7] with halted := true, pc := 0x0007, sp := 0x2400 }) fun t =>
      decide (t.halted = false ∧
        t.bus = [.intAck 0x0007 0xD7 true, .stackWrite 0x23FF 0x00, .stackWrite 0x23FE 0x07] ∧
        t.bus.map BusCycle.status = [some 0x2B, some 0x04, some 0x04])) = true := by decide

theorem test_halted_waits :
    (leaves (step { start with halted := true }) fun t => decide (t = { start with halted := true })) = true := by decide

theorem test_reset :
    (leaves
      (step { put start 0x2000 0x55 with
        inte := true, halted := true, eiInhibit := true, hlda := true, ir := 0x76
        pins := [{ reset := true, hold := none, int := none }] })
      fun t => decide (t.pc = 0x0000 ∧ t.ir = 0x00 ∧ t.inte = false ∧ t.hlda = false ∧ t.halted = false ∧
        t.eiInhibit = false ∧ t.peek 0x2000 = 0x55)) = true := by decide

/-- A Hold at the boundary: no instruction runs, the holder's write lands, HLDA is 1. -/
theorem test_hold :
    (leaves
      (step { start with
        pins := [{ reset := false, hold := some { clocks := 3, accesses := [.write 0x2000 0x99] }, int := none }] })
      fun t => decide (t.pc = 0x0100 ∧ t.hlda = true ∧ t.peek 0x2000 = 0x99 ∧ t.clocks = 3)) = true := by decide

theorem test_wait_states :
    (runs { start with slots := [{ reset := false, hold := none, waits := some 2 }] } [0x00]
      fun t => decide (t.pc = 0x0101 ∧ t.clocks = 6)) = true := by decide

/-- MOV M,E with two Wait clocks in its write: WAIT in that cycle alone; SYNC, DBIN, WR of its two cycles (20_memory.md
R60). -/
theorem test_wait_output :
    (runs { start with h := 0x20, e := 0x9D, slots := [⟨false, none, some 0⟩, ⟨false, none, some 2⟩] } [0x73] fun t =>
      decide (t.peek 0x2000 = 0x9D ∧ t.clocks = 9 ∧ t.waitStates = [⟨1, some 2⟩] ∧ t.signals =
        [⟨some 0x0100, some 0x73, some 0xA2, true, some true, true, false, false⟩,
          ⟨some 0x2000, some 0x9D, some 0x00, true, some false, false, false, true⟩])) = true := by decide

/-- CALL 0020H at 0008H, SP = 0400H: status, address, data of its five cycles. -/
theorem test_bus_call :
    (runs { start with pc := 0x0008, sp := 0x0400 } [0xCD, 0x20, 0x00] fun t =>
      decide (t.bus.map (fun c => (c.status, c.address, c.data)) =
        [(some 0xA2, some 0x0008, some 0xCD), (some 0x82, some 0x0009, some 0x20), (some 0x82, some 0x000A, some 0x00),
          (some 0x04, some 0x03FF, some 0x00), (some 0x04, some 0x03FE, some 0x0B)])) = true := by decide

/-- The instruction placed by `withFetchWord` is the one the next step runs. -/
theorem test_withFetchWord :
    (leaves (step (State.reset.withFetchWord 24 0xF23421)) fun t => decide (t.hl = 0xF234 ∧ t.pc = 0x0003)) = true := by
  decide

/-! ### For every statement with premises: a state that meets them -/

/-- The lines at a step: neither Reset nor Hold. -/
def boundary (int : Option (List Byte)) : Pins := { reset := false, hold := none, int := int }

/-- A machine-cycle boundary with nothing but Wait states. -/
def waiting (n : Nat) : BusSlot := { reset := false, hold := none, waits := some n }

/-- Read-only memory in the upper half, an absent page at 4000H, a device at 5000H. -/
def mixed : Platform :=
  { Platform.standard with
    regions := [⟨0x8000, 0x8000, .rom⟩, ⟨0x4000, 0x100, .absent⟩, ⟨0x5000, 0x100, .device⟩], absentInputs := [0x11] }

/-- A state with no field at its reset value that could hide a premise: registers all different, memory listed. -/
def sample : State :=
  { State.reset with
    a := 0x11, b := 0x22, c := 0x33, d := 0x44, e := 0x55, h := 0x66, l := 0x77, sp := 0x1000, pc := 0xFFFE
    flags := fl true false true false true, mem := [(0, 0x20), (0x6677, 0xAA), (0xFFFE, 0x3A), (0xFFFF, 0x50)]
    platform := mixed, answers := [0xC1, 0xC2] }

theorem witness_EncodeOfDecode :
    decode [0x3A, 0x50, 0x20, 0xFF] = .ok (.lda 0x2050, [0xFF]) ∧ decode [0xFF] = .ok (.rst 7, []) := by decide

theorem witness_LengthFromFirstByte :
    (0x00 : Byte) ∉ unassignedOpcodes ∧ (0x3A : Byte) ∉ unassignedOpcodes ∧ (0xFF : Byte) ∉ unassignedOpcodes := by decide

theorem witness_UnassignedBytesRefused :
    decode [0x08, 0, 0] = .error (.unassignedOpcode 0x08) ∧ decode [0xFD, 0, 0, 0] = .error (.unassignedOpcode 0xFD) := by
  decide

/-- LDA 2050H whose bytes lie at FFFEH, FFFFH and 0000H, once with no request and once with one that INTE = 0 shuts
out. -/
theorem witness_StepRunsDecodedInstruction :
    (sample.LinesAre none ∧ sample.halted = false ∧ sample.Undisturbed ∧
      decode (sample.codeAt sample.pc 3) = .ok (.lda 0x2050, []) ∧
      ∀ k < (encode (.lda 0x2050)).length, sample.HoldsMemory (sample.pc + BitVec.ofNat 16 k)) ∧
    ({ sample with pins := [boundary (some [0xFF])] } : State).LinesAre (some [0xFF]) ∧
      ({ sample with pins := [boundary (some [0xFF])] } : State).acceptsInterrupt = false := by
  decide

/-- An unassigned opcode at pc. -/
def unassignedAt (op : Byte) (policy : UnassignedPolicy) : State :=
  { State.reset with mem := [(0, op)], platform := { Platform.standard with unassigned := policy } }

theorem witness_UnassignedOpcodeStops :
    (unassignedAt 0xFD .refuse).LinesAre none ∧ (unassignedAt 0xFD .refuse).halted = false ∧
      (unassignedAt 0xFD .refuse).Undisturbed ∧
      (unassignedAt 0xFD .refuse).HoldsMemory (unassignedAt 0xFD .refuse).pc ∧
      (unassignedAt 0xFD .refuse).platform.unassigned = .refuse ∧
      (unassignedAt 0xFD .refuse).peek (unassignedAt 0xFD .refuse).pc ∈ unassignedOpcodes := by
  decide

/-- One opcode of each of the four kinds. -/
theorem witness_UnassignedOpcodeAlias :
    ∀ w ∈ [((0x38 : Byte), (0x00 : Byte), Instr.nop), (0xCB, 0xC3, .jmp 0), (0xD9, 0xC9, .ret), (0xFD, 0xCD, .call 0)],
      (unassignedAt w.1 .alias8080A).LinesAre none ∧ (unassignedAt w.1 .alias8080A).halted = false ∧
        (unassignedAt w.1 .alias8080A).Undisturbed ∧ (unassignedAt w.1 .alias8080A).platform.unassigned = .alias8080A ∧
        (unassignedAt w.1 .alias8080A).peek 0 ∈ unassignedOpcodes ∧
        (decode (w.2.1 :: (unassignedAt w.1 .alias8080A).codeAt 1 2)).toOption.map Prod.fst = some w.2.2 ∧
        ∀ k < (encode w.2.2).length, (unassignedAt w.1 .alias8080A).HoldsMemory (0 + BitVec.ofNat 16 k) := by
  decide

/-- CALL, three supplied bytes. -/
theorem witness_AcceptedInterruptRunsSupplied :
    encode (.call 0x3000) = 0xCD :: [0x00, 0x30] ∧ Instr.call 0x3000 ≠ .xthl ∧
      (asked [0xCD, 0x00, 0x30]).LinesAre (some (0xCD :: [0x00, 0x30])) ∧
      (asked [0xCD, 0x00, 0x30]).acceptsInterrupt = true ∧ (asked [0xCD, 0x00, 0x30]).Undisturbed := by
  decide

theorem witness_IgnoredInterruptHasNoEffect :
    ({ asked [0xD7] with inte := false } : State).LinesAre (some [0xD7]) ∧
      ({ asked [0xD7] with eiInhibit := true } : State).LinesAre (some [0xD7]) ∧
      ({ asked [0xD7] with eiInhibit := true } : State).inte = true := by
  decide

/-- RST 7 with the stack wrapping below 0000H. -/
theorem witness_InterruptThenReturn :
    encode (.rst 7) = 0xFF :: [] ∧ ({ asked [0xFF] with sp := 0x0001 } : State).LinesAre (some (0xFF :: [])) ∧
      ({ asked [0xFF] with sp := 0x0001 } : State).acceptsInterrupt = true ∧
      ({ asked [0xFF] with sp := 0x0001 } : State).Undisturbed ∧ ({ asked [0xFF] with sp := 0x0001 } : State).mem.wf ∧
      (asked [0xFF]).kindAt (0x0001 - 1) = .ram ∧ (asked [0xFF]).kindAt (0x0001 - 2) = .ram := by
  decide

theorem witness_XthlSuppliedRefused :
    (asked [0xE3]).LinesAre (some (0xE3 :: [])) ∧ (asked [0xE3]).acceptsInterrupt = true ∧ (asked [0xE3]).Undisturbed := by
  decide

theorem witness_HaltedWaits :
    ({ sample with halted := true } : State).halted = true ∧ ({ sample with halted := true } : State).LinesAre none ∧
      ({ asked [0xD7] with halted := true, inte := false } : State).acceptsInterrupt = false := by
  decide

/-- Reset with HOLD and INT active too. -/
theorem witness_ResetStep :
    ({ sample with
      pins := [{ reset := true, hold := some { clocks := 0, accesses := [] }, int := some [0xFF] }] } :
        State).takePins.1.reset = true := by
  decide

theorem witness_ResetInsidePush :
    ({ sample with slots := [waiting 0, { reset := true, hold := none, waits := none }] } : State).abandoned = none ∧
      sample.mem.wf ∧ sample.kindAt (sample.sp - 1) = .ram := by
  decide

/-- HOLD, then no HOLD with the interrupt line still active. -/
theorem witness_HoldPostponesInterrupts :
    ({ asked [0xFF] with
      pins := [{ reset := false, hold := some { clocks := 2, accesses := [] }, int := some [0xFF] },
        boundary (some [0xFF])] } : State).pins =
      { reset := false, hold := some { clocks := 2, accesses := [] }, int := some [0xFF] } ::
        boundary (some [0xFF]) :: [] := by
  decide

/-- A Hold whose device writes one byte: address 2000H may change, 2001H may not. -/
def held : State :=
  { sample with
    pins := [{ reset := false, hold := some { clocks := 1, accesses := [.write 0x2000 0x99, .read 0x5000] }
               int := none }] }

theorem witness_HoldLeavesProcessor :
    held.takePins.1.reset = false ∧
      held.takePins.1.hold = some { clocks := 1, accesses := [.write 0x2000 0x99, .read 0x5000] } ∧
      ∀ v, DmaAccess.write 0x2001 v ∉ [DmaAccess.write 0x2000 0x99, .read 0x5000] := by
  refine ⟨by decide, by decide, fun v => ?_⟩
  simp

theorem witness_HoldSplitsIncrement :
    sample.abandoned = none ∧ sample.kindAt sample.hl = .ram ∧ sample.mem.wf ∧
      ({ sample with slots :=
          [waiting 1, { reset := false, hold := some { clocks := 5, accesses := [.write sample.hl 0x31] }, waits := some 0 }]
        } : State).slots =
        [{ reset := false, hold := none, waits := some 1 },
          { reset := false, hold := some { clocks := 5, accesses := [.write sample.hl 0x31] }, waits := some 0 }] := by
  decide

theorem witness_WaitsOnlyDelay :
    ({ sample with slots := [waiting 3, waiting 0] } : State).abandoned = none ∧
      ∀ slot ∈ ({ sample with slots := [waiting 3, waiting 0] } : State).slots,
        slot.reset = false ∧ slot.hold = none ∧ ∃ n, slot.waits = some n := by
  refine ⟨rfl, fun slot h => ?_⟩
  rcases List.mem_cons.1 h with rfl | h
  · exact ⟨rfl, rfl, 3, rfl⟩
  · rw [List.mem_singleton.1 h]
    exact ⟨rfl, rfl, 0, rfl⟩

/-- READY never comes in the first cycle. -/
def stuck : State := { sample with slots := [{ reset := false, hold := none, waits := none }] }

theorem witness_ReadyWithheldIsStuck :
    stuck.LinesAre none ∧ stuck.halted = false ∧ stuck.abandoned = none ∧
      stuck.slots = { reset := false, hold := none, waits := none } :: [] := by
  decide

/-- A step from a state with the invariant that goes on; one after which `ei_inhibit` is set. -/
theorem witness_StepKeepsInv :
    sample.Inv ∧ (∃ t, step sample = .next t) ∧
      (leaves (step (put start 0x0100 0xFB)) fun t => decide (t.Inv ∧ t.eiInhibit = true)) = true :=
  ⟨by decide, ⟨_, rfl⟩, by decide⟩

theorem witness_ReadOnlyMemoryNeverChanges :
    (∃ t, step sample = .next t) ∧ sample.kindAt 0x8000 ≠ .ram ∧ sample.kindAt 0x40FF ≠ .ram := by
  refine ⟨⟨_, rfl⟩, by decide⟩

/-- Each of the three stops happens. -/
theorem witness_StepStopsOnlyFor :
    stuck.abandoned = none ∧ step stuck = .fault .readyWithheld ∧
      step (unassignedAt 0x08 .refuse) = .refused (.unassignedOpcode 0x08) ∧
      step (asked [0xE3]) = .refused .xthlAsInterruptInstruction :=
  ⟨rfl, rfl, rfl, rfl⟩

/-- INX B writes neither A nor SP nor pc. -/
theorem witness_RegistersFrame :
    (∃ t, exec .inxB sample = .next t) ∧ Reg.a ∉ registersWritten .inxB ∧ writesSp .inxB = false ∧
      writesPc .inxB = false ∧ Instr.inxB ≠ .hlt :=
  ⟨⟨_, rfl⟩, by decide⟩

/-- One instruction of each of the four kinds. -/
theorem witness_FlagsFrame :
    (∃ t, exec (.addR .b) sample = .next t) ∧ (∃ t, exec (.inrR .b) sample = .next t) ∧
      (∃ t, exec .dadB sample = .next t) ∧ (∃ t, exec .cma sample = .next t) ∧ flagEffect (.addR .b) = .all ∧
      flagEffect (.inrR .b) = .allButCarry ∧ flagEffect .dadB = .carryOnly ∧ flagEffect .cma = .none :=
  ⟨⟨_, rfl⟩, ⟨_, rfl⟩, ⟨_, rfl⟩, ⟨_, rfl⟩, by decide⟩

theorem witness_InterruptEnableFlipFlop :
    ({ sample with pins := [{ reset := true, hold := none, int := none }] } : State).takePins.1.reset = true ∧
      (∃ t, exec .nop sample = .next t) ∧ Instr.nop ≠ .ei ∧ Instr.nop ≠ .di ∧ sample.inte = false ∧
      (asked [0xFF]).inte = true ∧ (asked [0xFF]).eiInhibit = false :=
  ⟨by decide, ⟨_, rfl⟩, by decide⟩

/-- From memory, from an absent address, from a device. -/
theorem witness_LoadResult :
    LoadForm sample (.movRM .h) .h sample.hl 7 ∧ LoadForm sample (.lda 0x4000) .a 0x4000 13 ∧
      LoadForm sample (.lda 0x5000) .a 0x5000 13 ∧ LoadForm sample .ldaxB .a sample.bc 7 ∧
      LoadForm sample .ldaxD .a sample.de 7 ∧ sample.Undisturbed ∧ sample.HoldsMemory sample.hl :=
  ⟨.movRM _, .lda _, .lda _, .ldaxB, .ldaxD, by decide⟩

theorem witness_StoreResult :
    StoreForm sample (.movMR .l) sample.hl sample.l 7 ∧ StoreForm sample (.sta 0xFFFF) 0xFFFF sample.a 13 ∧
      StoreForm sample (.mviM 0) sample.hl 0 10 ∧ StoreForm sample .staxB sample.bc sample.a 7 ∧
      StoreForm sample .staxD sample.de sample.a 7 ∧ sample.Undisturbed ∧ sample.mem.wf :=
  ⟨.movMR _, .sta _, .mviM _, .staxB, .staxD, by decide⟩

/-- The pair at FFFFH wraps to 0000H. -/
theorem witness_PairTransferResult :
    sample.Undisturbed ∧ sample.mem.wf ∧ sample.HoldsMemory 0xFFFF ∧ sample.HoldsMemory (0xFFFF + 1) := by decide

theorem witness_XthlResult :
    ({ sample with sp := 0xFFFF } : State).Undisturbed ∧ ({ sample with sp := 0xFFFF } : State).mem.wf ∧
      ({ sample with sp := 0xFFFF } : State).HoldsMemory 0xFFFF ∧
      ({ sample with sp := 0xFFFF } : State).HoldsMemory (0xFFFF + 1) := by
  decide

theorem witness_InOutResult :
    sample.Undisturbed ∧ (0x10 : Byte) ∉ sample.platform.absentInputs ∧ sample.answers = 0xC1 :: [0xC2] := by decide

/-- The address read may be the one stored to or another. -/
theorem witness_LoadSeesStore : sample.Undisturbed ∧ sample.mem.wf ∧ sample.HoldsMemory 0x8000 := by decide

theorem witness_HltResult : sample.Undisturbed := by decide

/-- Jumps taken and not: S = 1, Z = 0, P = 0, CY = 1. -/
theorem witness_JumpResult :
    JumpForm sample.flags 0xFFFF (.jmp 0xFFFF) true ∧ JumpForm sample.flags 0 (.jc 0) true ∧
      JumpForm sample.flags 0 (.jnc 0) false ∧ JumpForm sample.flags 0 (.jz 0) false ∧
      JumpForm sample.flags 0 (.jnz 0) true ∧ JumpForm sample.flags 0 (.jp 0) false ∧
      JumpForm sample.flags 0 (.jm 0) true ∧ JumpForm sample.flags 0 (.jpe 0) false ∧
      JumpForm sample.flags 0 (.jpo 0) true :=
  ⟨.jmp, .jc, .jnc, .jz, .jnz, .jp, .jm, .jpe, .jpo⟩

theorem witness_CallResult :
    CallForm sample.flags (.call 0xFFFF) 0xFFFF true 17 17 ∧ CallForm sample.flags (.cc 0) 0 true 17 11 ∧
      CallForm sample.flags (.cnc 0) 0 false 17 11 ∧ CallForm sample.flags (.rst 7) 0x0038 true 11 11 ∧
      sample.Undisturbed ∧ sample.mem.wf :=
  ⟨.call _, .cc _, .cnc _, .rst 7, by decide⟩

theorem witness_ReturnResult :
    ReturnForm sample.flags .ret true 10 10 ∧ ReturnForm sample.flags .rc true 11 5 ∧
      ReturnForm sample.flags .rnc false 11 5 ∧ sample.Undisturbed ∧ sample.HoldsMemory sample.sp ∧
      sample.HoldsMemory (sample.sp + 1) :=
  ⟨.ret, .rc, .rnc, by decide⟩

theorem witness_AddResult :
    AddForm sample (.addR .a) sample.a false 4 ∧ AddForm sample (.adcR .b) sample.b true 4 ∧
      AddForm sample (.adi 0xFF) 0xFF false 7 ∧ AddForm sample (.aci 0xFF) 0xFF true 7 :=
  ⟨.addR .a, .adcR .b, .adi _, .aci _⟩

theorem witness_SubtractResult :
    SubForm sample (.subR .a) sample.a false 4 ∧ SubForm sample (.sbbR .b) sample.b true 4 ∧
      SubForm sample (.sui 0xFF) 0xFF false 7 ∧ SubForm sample (.sbi 0xFF) 0xFF true 7 ∧
      CmpForm sample (.cmpR .l) sample.l 4 ∧ CmpForm sample (.cpi 0) 0 7 :=
  ⟨.subR .a, .sbbR .b, .sui _, .sbi _, .cmpR .l, .cpi _⟩

theorem witness_MemoryOperandResult :
    MemoryOperandForm (sample.rawRead sample.hl).1 .addM (.adi (sample.rawRead sample.hl).1) ∧
      MemoryOperandForm (sample.rawRead sample.hl).1 .cmpM (.cpi (sample.rawRead sample.hl).1) ∧ sample.Undisturbed :=
  ⟨.add, .cmp, by decide⟩

theorem witness_DadResult :
    DadForm sample .dadB sample.bc ∧ DadForm sample .dadD sample.de ∧ DadForm sample .dadH sample.hl ∧
      DadForm sample .dadSp sample.sp :=
  ⟨.dadB, .dadD, .dadH, .dadSp⟩

/-- A = 9BH: both digits are corrected. A = 00H: neither is. -/
theorem witness_DaaResult :
    (6 = (if ({ start with a := 0x9B } : State).flags.ac = true ∨ 9 < ({ start with a := 0x9B } : State).a.toNat % 16
        then 6 else 0) ∧
      96 = (if ({ start with a := 0x9B } : State).flags.carry = true ∨
          9 < ({ start with a := 0x9B } : State).a.toNat / 16 ∨
          (9 ≤ ({ start with a := 0x9B } : State).a.toNat / 16 ∧ 9 < ({ start with a := 0x9B } : State).a.toNat % 16)
        then 96 else 0)) ∧
    (0 = (if start.flags.ac = true ∨ 9 < start.a.toNat % 16 then 6 else 0) ∧
      0 = (if start.flags.carry = true ∨ 9 < start.a.toNat / 16 ∨ (9 ≤ start.a.toNat / 16 ∧ 9 < start.a.toNat % 16)
        then 96 else 0)) := by
  decide

/-- 99 + 99 with the carry in CY, and 0 + 0. -/
theorem witness_DaaAdjustsDecimalSum :
    (99 < 100 ∧ (0x99 : Byte).toNat = 99 / 10 * 16 + 99 % 10) ∧ (0 < 100 ∧ start.a.toNat = 0 / 10 * 16 + 0 % 10) := by
  decide

theorem witness_PushResult :
    PushForm sample .pushB sample.b sample.c ∧ PushForm sample .pushD sample.d sample.e ∧
      PushForm sample .pushH sample.h sample.l ∧ ({ sample with sp := 0x0001 } : State).Undisturbed ∧
      ({ sample with sp := 0x0001 } : State).mem.wf :=
  ⟨.pushB, .pushD, .pushH, by decide⟩

theorem witness_PushResult_psw : PushForm sample .pushPsw sample.a 0b10010011 := .pushPsw

theorem witness_PopResult :
    sample.Undisturbed ∧ PopForm .popB .b .c ∧ PopForm .popD .d .e ∧ PopForm .popH .h .l ∧
      sample.HoldsMemory sample.sp ∧ sample.HoldsMemory (sample.sp + 1) :=
  ⟨by decide, .popB, .popD, .popH, by decide⟩

/-- The stack across 0000H. -/
theorem witness_PushPopPsw :
    ({ start with sp := 0x0001 } : State).Undisturbed ∧ start.mem.wf ∧ start.kindAt (0x0001 - 1) = .ram ∧
      start.kindAt (0x0001 - 2) = .ram := by
  decide

theorem witness_LogicResult :
    AndForm sample (.anaR .a) sample.a 4 ∧ AndForm sample (.ani 0xFF) 0xFF 7 ∧
      OrForm sample (.xraR .a) (sample.a ^^^ sample.a) 4 ∧ OrForm sample (.xri 0) (sample.a ^^^ 0) 7 ∧
      OrForm sample (.oraR .b) (sample.a ||| sample.b) 4 ∧ OrForm sample (.ori 0) (sample.a ||| 0) 7 :=
  ⟨.anaR .a, .ani _, .xraR .a, .xri _, .oraR .b, .ori _⟩

theorem witness_IncDecMemoryResult :
    sample.Undisturbed ∧ sample.mem.wf ∧ (0xAA : Byte) = (sample.rawRead sample.hl).1 := by decide

theorem witness_PairStepResult :
    PairStepForm .inxB .b .c 1 ∧ PairStepForm .inxD .d .e 1 ∧ PairStepForm .inxH .h .l 1 ∧
      PairStepForm .dcxB .b .c 65535 ∧ PairStepForm .dcxD .d .e 65535 ∧ PairStepForm .dcxH .h .l 65535 :=
  ⟨.inxB, .inxD, .inxH, .dcxB, .dcxD, .dcxH⟩

end Sys2Proof.Tests
end

section
/-! Proofs for the encoding statements (30_encoding.md): what the fields of byte 1 select, then the statements. -/

namespace Sys2Proof

/-! ### The fields of an opcode, and the map read by its two high bits -/

/-- Bit `k` of an opcode, read from the field it lies in. -/
theorem opcodeByte_getLsbD (group : BitVec 2) (mid low : BitVec 3) (k : Nat) :
    (opcodeByte group mid low).getLsbD k =
      if k < 3 then low.getLsbD k else if k < 6 then mid.getLsbD (k - 3) else group.getLsbD (k - 6) := by
  have hmid : k - 3 < 3 ↔ k < 6 := by omega
  simp only [opcodeByte, BitVec.getLsbD_append, Nat.sub_sub, hmid]

@[simp] theorem opGroup_opcodeByte (group : BitVec 2) (mid low : BitVec 3) :
    opGroup (opcodeByte group mid low) = group := by
  unfold opGroup
  ext i hi
  rw [BitVec.getElem_extractLsb', opcodeByte_getLsbD, if_neg (by omega), if_neg (by omega), Nat.add_sub_cancel_left]
  exact BitVec.getLsbD_eq_getElem hi

@[simp] theorem opMid_opcodeByte (group : BitVec 2) (mid low : BitVec 3) :
    opMid (opcodeByte group mid low) = mid := by
  unfold opMid
  ext i hi
  rw [BitVec.getElem_extractLsb', opcodeByte_getLsbD, if_neg (by omega), if_pos (by omega), Nat.add_sub_cancel_left]
  exact BitVec.getLsbD_eq_getElem hi

@[simp] theorem opLow_opcodeByte (group : BitVec 2) (mid low : BitVec 3) :
    opLow (opcodeByte group mid low) = low := by
  unfold opLow
  ext i hi
  rw [BitVec.getElem_extractLsb', opcodeByte_getLsbD, if_pos (by omega), Nat.zero_add]
  exact BitVec.getLsbD_eq_getElem hi

/-- 10_state.md R21: a register's code names that register. -/
@[simp] theorem Reg.ofCode_code (r : Reg) : Reg.ofCode r.code = some r := by cases r <;> rfl

/-- 30_encoding.md R82: the code of the memory form names no register. -/
theorem Reg.ofCode_memory : Reg.ofCode 0b110 = none := rfl

theorem decodeOpcode_group0 (mid low : BitVec 3) : decodeOpcode (opcodeByte 0b00 mid low) = decodeGroup0 mid low := by
  simp [decodeOpcode]

theorem decodeOpcode_group1 (mid low : BitVec 3) : decodeOpcode (opcodeByte 0b01 mid low) = decodeGroup1 mid low := by
  simp [decodeOpcode]

theorem decodeOpcode_group2 (mid low : BitVec 3) : decodeOpcode (opcodeByte 0b10 mid low) = decodeGroup2 mid low := by
  simp [decodeOpcode]

/-! ### What a register's code in a field selects (30_encoding.md R82) -/

theorem decodeOpcode_movRR (dst src : Reg) :
    decodeOpcode (opcodeByte 0b01 dst.code src.code) = .one (.movRR dst src) := by
  rw [decodeOpcode_group1, decodeGroup1, Reg.ofCode_code, Reg.ofCode_code]

theorem decodeOpcode_movMR (src : Reg) : decodeOpcode (opcodeByte 0b01 0b110 src.code) = .one (.movMR src) := by
  rw [decodeOpcode_group1, decodeGroup1, Reg.ofCode_memory, Reg.ofCode_code]

theorem decodeOpcode_movRM (dst : Reg) : decodeOpcode (opcodeByte 0b01 dst.code 0b110) = .one (.movRM dst) := by
  rw [decodeOpcode_group1, decodeGroup1, Reg.ofCode_code, Reg.ofCode_memory]

theorem decodeOpcode_mviR (dst : Reg) : decodeOpcode (opcodeByte 0b00 dst.code 0b110) = .two (.mviR dst) := by
  rw [decodeOpcode_group0]
  simp [decodeGroup0]

theorem decodeOpcode_inrR (reg : Reg) : decodeOpcode (opcodeByte 0b00 reg.code 0b100) = .one (.inrR reg) := by
  rw [decodeOpcode_group0]
  simp [decodeGroup0]

theorem decodeOpcode_dcrR (reg : Reg) : decodeOpcode (opcodeByte 0b00 reg.code 0b101) = .one (.dcrR reg) := by
  rw [decodeOpcode_group0]
  simp [decodeGroup0]

/-- An accumulator operation whose field `ooo` selects `onReg` on a register and `onMem` on memory decodes to them. -/
theorem decode_accumulator {ooo : BitVec 3} {src : Reg} {onReg onMem : Instr}
    (hreg : decodeGroup2 ooo src.code = .one onReg) (hmem : decodeGroup2 ooo 0b110 = .one onMem) (rest : List Byte) :
    decode (opcodeByte 0b10 ooo src.code :: rest) = .ok (onReg, rest) ∧
      decode (opcodeByte 0b10 ooo 0b110 :: rest) = .ok (onMem, rest) :=
  ⟨decode_one (by rw [decodeOpcode_group2, hreg]) rest, decode_one (by rw [decodeOpcode_group2, hmem]) rest⟩

/-- With two more bytes at hand an assigned opcode decodes, and `Length(op)` bytes are taken (30_encoding.md R87). -/
theorem decode_takes_opcodeLength {op : Byte} (b2 b3 : Byte) (rest : List Byte) (h : op ∉ unassignedOpcodes) :
    ∃ i, decode (op :: b2 :: b3 :: rest) = .ok (i, (b2 :: b3 :: rest).drop (opcodeLength op - 1)) := by
  have agrees := decodeOpcode_agreesWith op
  cases hd : decodeOpcode op with
  | one i =>
    rw [hd] at agrees
    obtain ⟨-, hlen, -⟩ := agrees
    exact ⟨i, by rw [decode_one hd, hlen]; rfl⟩
  | two f =>
    rw [hd] at agrees
    obtain ⟨-, hlen, -⟩ := agrees
    exact ⟨f b2, by rw [decode_two hd, hlen]; rfl⟩
  | three f =>
    rw [hd] at agrees
    obtain ⟨-, hlen, -⟩ := agrees
    exact ⟨f (mkWord b3 b2), by rw [decode_three hd, hlen]; rfl⟩
  | unassigned =>
    rw [hd] at agrees
    exact absurd agrees h

/-! ### The statements -/

/-- Settles O3: the map's agreement with `opcodeLength`, which is the printed function. -/
theorem lengthFromFirstByte : Obligations.LengthFromFirstByte :=
  fun _ b2 b3 rest h => decode_takes_opcodeLength b2 b3 rest h

/-- Settles O4, by what each field selects. -/
theorem registerFieldCodes : Obligations.RegisterFieldCodes := by
  refine ⟨⟨rfl, rfl, rfl, rfl, rfl, rfl, rfl⟩, fun dst src data rest => ?_⟩
  refine ⟨decode_one (decodeOpcode_movRR dst src) rest, decode_one (decodeOpcode_movMR src) rest,
    decode_one (decodeOpcode_movRM dst) rest, decode_two (decodeOpcode_mviR dst) data rest, decode_two rfl data rest,
    decode_one (decodeOpcode_inrR dst) rest, decode_one rfl rest, decode_one (decodeOpcode_dcrR dst) rest,
    decode_one rfl rest, fun ooo hooo => ?_, decode_one rfl rest⟩
  fin_cases hooo <;> exact decode_accumulator (by simp [decodeGroup2]) rfl rest

end Sys2Proof
end

section
/-! Proofs for the rest of the encoding statements (30_encoding.md): the decoder and the encoder undo each other, and what
is refused. -/

namespace Sys2Proof

theorem decodeOpcode_group3 (mid low : BitVec 3) : decodeOpcode (opcodeByte 0b11 mid low) = decodeGroup3 mid low := by
  simp [decodeOpcode]

/-- 30_encoding.md R84: the field of RST is its operand. -/
theorem decodeOpcode_rst (vvv : BitVec 3) : decodeOpcode (opcodeByte 0b11 vvv 0b111) = .one (.rst vvv) := by
  rw [decodeOpcode_group3]
  simp [decodeGroup3]

/-- 30_encoding.md R86: the operand of a three-byte instruction comes back from its two bytes. -/
theorem decode_encode3 {op : Byte} {f : Word → Instr} (h : decodeOpcode op = .three f) (w : Word) (rest : List Byte) :
    decode (encode3 op w ++ rest) = .ok (f w, rest) := by
  have hd := decode_three h (loByte w) (hiByte w) rest
  rwa [mkWord_split] at hd

/-- An accumulator operation on a register, by its field `ooo`. -/
theorem decode_accumulatorR {ooo : BitVec 3} {src : Reg} {onReg : Instr}
    (h : decodeGroup2 ooo src.code = .one onReg) (rest : List Byte) :
    decode (opcodeByte 0b10 ooo src.code :: rest) = .ok (onReg, rest) :=
  decode_one (by rw [decodeOpcode_group2, h]) rest

/-- The opcodes that select nothing are the twelve of 30_encoding.md R92. -/
theorem decodeOpcode_eq_unassigned_iff (op : Byte) : decodeOpcode op = .unassigned ↔ op ∈ unassignedOpcodes := by
  have agrees := decodeOpcode_agreesWith op
  cases hd : decodeOpcode op with
  | one i =>
    rw [hd] at agrees
    obtain ⟨-, -, hop⟩ := agrees
    simp [hop]
  | two f =>
    rw [hd] at agrees
    obtain ⟨-, -, hop⟩ := agrees
    simp [hop]
  | three f =>
    rw [hd] at agrees
    obtain ⟨-, -, hop⟩ := agrees
    simp [hop]
  | unassigned =>
    rw [hd] at agrees
    exact iff_of_true rfl agrees

/-! ### The statements -/

/-- Settles O1: the map read at the opcode of each instruction, then its operand bytes. -/
theorem decodeOfEncode : Obligations.DecodeOfEncode := by
  intro i rest
  cases i with
  | movRR dst src => exact decode_one (decodeOpcode_movRR dst src) rest
  | movMR src => exact decode_one (decodeOpcode_movMR src) rest
  | movRM dst => exact decode_one (decodeOpcode_movRM dst) rest
  | inrR reg => exact decode_one (decodeOpcode_inrR reg) rest
  | dcrR reg => exact decode_one (decodeOpcode_dcrR reg) rest
  | rst vvv => exact decode_one (decodeOpcode_rst vvv) rest
  | mviR dst data => exact decode_two (decodeOpcode_mviR dst) data rest
  | addR src | adcR src | subR src | sbbR src | anaR src | xraR src | oraR src | cmpR src =>
    exact decode_accumulatorR (by simp [decodeGroup2]) rest
  | mviM data | inPort data | outPort data | adi data | aci data | sui data | sbi data | ani data | xri data | ori data
  | cpi data => exact decode_two rfl data rest
  | lda w | lhld w | lxiH w | lxiD w | lxiB w | lxiSp w | shld w | sta w | jmp w | jc w | jnc w | jz w | jnz w | jp w
  | jm w | jpe w | jpo w | call w | cc w | cnc w | cz w | cnz w | cp w | cm w | cpe w | cpo w =>
    exact decode_encode3 rfl w rest
  | _ => exact decode_one rfl rest

/-- Settles O2: what the opcode selects is encoded with that opcode. -/
theorem encodeOfDecode : Obligations.EncodeOfDecode := by
  intro bytes i rest h
  rcases decode_ok h with ⟨op, hd, rfl⟩ | ⟨op, f, data, hd, rfl, rfl⟩ | ⟨op, f, lo, hi, hd, rfl, rfl⟩
  · have agrees := decodeOpcode_agreesWith op
    rw [hd] at agrees
    rw [agrees.1, List.singleton_append]
  · have agrees := decodeOpcode_agreesWith op
    rw [hd] at agrees
    rw [agrees.1, List.cons_append, List.singleton_append]
  · have agrees := decodeOpcode_agreesWith op
    rw [hd] at agrees
    rw [agrees.1, encode3, loByte_mkWord, hiByte_mkWord]
    rfl

/-- Settles O5: the map read at each condition. -/
theorem conditionFieldCodes : Obligations.ConditionFieldCodes := fun lo hi rest =>
  ⟨⟨decode_three rfl lo hi rest, decode_three rfl lo hi rest, decode_three rfl lo hi rest, decode_three rfl lo hi rest,
      decode_three rfl lo hi rest, decode_three rfl lo hi rest, decode_three rfl lo hi rest, decode_three rfl lo hi rest⟩,
    ⟨decode_three rfl lo hi rest, decode_three rfl lo hi rest, decode_three rfl lo hi rest, decode_three rfl lo hi rest,
      decode_three rfl lo hi rest, decode_three rfl lo hi rest, decode_three rfl lo hi rest, decode_three rfl lo hi rest⟩,
    decode_one rfl rest, decode_one rfl rest, decode_one rfl rest, decode_one rfl rest, decode_one rfl rest,
    decode_one rfl rest, decode_one rfl rest, decode_one rfl rest⟩

/-- Settles O6: with two more bytes at hand no assigned opcode lacks an operand byte. -/
theorem unassignedBytesRefused : Obligations.UnassignedBytesRefused := by
  intro op b2 b3 rest err
  have hlist : (op = 0x08 ∨ op = 0x10 ∨ op = 0x18 ∨ op = 0x20 ∨ op = 0x28 ∨ op = 0x30 ∨ op = 0x38 ∨ op = 0xCB ∨
      op = 0xD9 ∨ op = 0xDD ∨ op = 0xED ∨ op = 0xFD) ↔ op ∈ unassignedOpcodes := by
    simp [unassignedOpcodes]
  rw [hlist]
  by_cases hop : op ∈ unassignedOpcodes
  · rw [decode_unassigned ((decodeOpcode_eq_unassigned_iff op).2 hop)]
    simp [hop, eq_comm]
  · obtain ⟨i, hi⟩ := decode_takes_opcodeLength b2 b3 rest hop
    simp [hi, hop]

/-- Settles O7, each word by its format. -/
theorem printedWordsDecode : Obligations.PrintedWordsDecode :=
  ⟨decode_one rfl [], decode_three rfl _ _ [], decode_three rfl _ _ [], decode_two rfl _ [], decode_two rfl _ [],
    decode_one rfl []⟩

end Sys2Proof
end

section
/-! What every instruction does, said once: it is made of the updates its line of the tables allows and of bus cycles. So a
relation between two runs that these keep is kept by the instruction (`exec_simulates`), and so is a property of one run
(`exec_keeps`). -/

namespace Sys2Proof.Machine

/-- A relation between two runs of `i` under which both runs see the same processor, and which the updates `i` may make and
every bus cycle keep, made on both sides. -/
structure Simulates (i : Instr) (R : State → State → Prop) : Prop where
  regs : ∀ {s u}, R s u → u.getReg = s.getReg
  sp : ∀ {s u}, R s u → u.sp = s.sp
  pc : ∀ {s u}, R s u → u.pc = s.pc
  flags : ∀ {s u}, R s u → u.flags = s.flags
  platform : ∀ {s u}, R s u → u.platform = s.platform
  setReg : ∀ {s u r} (v : Byte), r ∈ registersWritten i → R s u → R (s.setReg r v) (u.setReg r v)
  setSp : ∀ {s u} (v : Word), writesSp i = true → R s u → R (s.setSp v) (u.setSp v)
  setPc : ∀ {s u} (v : Word), writesPc i = true → R s u → R (s.setPc v) (u.setPc v)
  setFlags : ∀ {s u} {f : Flags}, (flagEffect i).allows s.flags f → R s u → R (s.setFlags f) (u.setFlags f)
  halt : ∀ {s u}, i = .hlt → R s u → R { s with halted := true } { u with halted := true }
  enable : ∀ {s u} (b : Bool), i = .ei → R s u →
    R { s with inte := true, eiInhibit := b } { u with inte := true, eiInhibit := b }
  disable : ∀ {s u}, i = .di → R s u → R { s with inte := false } { u with inte := false }
  tick : ∀ {s u} (n : Nat), R s u → R (s.tick n) (u.tick n)
  read : ∀ {s u} (a : Word) (mk : Byte → BusCycle), R s u →
    (u.readCycle (fun t => t.rawRead a) mk).1 = (s.readCycle (fun t => t.rawRead a) mk).1 ∧
      R (s.readCycle (fun t => t.rawRead a) mk).2 (u.readCycle (fun t => t.rawRead a) mk).2
  input : ∀ {s u} (p : Byte) (mk : Byte → BusCycle), R s u →
    (u.readCycle (fun t => t.rawInput p) mk).1 = (s.readCycle (fun t => t.rawInput p) mk).1 ∧
      R (s.readCycle (fun t => t.rawInput p) mk).2 (u.readCycle (fun t => t.rawInput p) mk).2
  write : ∀ {s u} (a : Word) (v : Byte) (c : BusCycle), R s u →
    R (s.writeCycle (fun t => t.rawWrite a v) c) (u.writeCycle (fun t => t.rawWrite a v) c)
  emit : ∀ {s u} (c : BusCycle), R s u → R (s.writeCycle id c) (u.writeCycle id c)

namespace Simulates

variable {i : Instr} {R : State → State → Prop} {s u : State}

/-! ### The operations of Ops.lean on both sides -/

theorem a (h : Simulates i R) (hs : R s u) : u.a = s.a := congrFun (h.regs hs) .a

theorem bc (h : Simulates i R) (hs : R s u) : u.bc = s.bc :=
  congrArg₂ mkWord (congrFun (h.regs hs) .b) (congrFun (h.regs hs) .c)

theorem de (h : Simulates i R) (hs : R s u) : u.de = s.de :=
  congrArg₂ mkWord (congrFun (h.regs hs) .d) (congrFun (h.regs hs) .e)

theorem hl (h : Simulates i R) (hs : R s u) : u.hl = s.hl :=
  congrArg₂ mkWord (congrFun (h.regs hs) .h) (congrFun (h.regs hs) .l)

theorem readMem (h : Simulates i R) (hs : R s u) {a a' : Word} (ha : a' = a) :
    (u.readMem a').1 = (s.readMem a).1 ∧ R (s.readMem a).2 (u.readMem a').2 := by
  subst ha
  exact h.read _ _ hs

theorem writeMem (h : Simulates i R) (hs : R s u) {a a' : Word} (ha : a' = a) {v v' : Byte} (hv : v' = v) :
    R (s.writeMem a v) (u.writeMem a' v') := by
  subst ha hv
  exact h.write _ _ _ hs

theorem push16 (h : Simulates i R) (hw : writesSp i = true) (hs : R s u) {v v' : Word} (hv : v' = v) :
    R (s.push16 v) (u.push16 v') := by
  subst hv
  simp only [State.push16, State.writeStack, h.sp hs]
  exact h.setSp _ hw (h.write _ _ _ (h.write _ _ _ hs))

theorem readStack (h : Simulates i R) (hs : R s u) {a a' : Word} (ha : a' = a) :
    (u.readStack a').1 = (s.readStack a).1 ∧ R (s.readStack a).2 (u.readStack a').2 := by
  subst ha
  exact h.read _ _ hs

theorem pop16 (h : Simulates i R) (hw : writesSp i = true) (hs : R s u) :
    u.pop16.1 = s.pop16.1 ∧ R s.pop16.2 u.pop16.2 := by
  obtain ⟨hlo, hs1⟩ := h.readStack hs (h.sp hs)
  obtain ⟨hhi, hs2⟩ := h.readStack hs1 (congrArg (· + 1) (h.sp hs))
  refine ⟨congrArg₂ mkWord hhi hlo, ?_⟩
  simp only [State.pop16, h.sp hs] at hs2 ⊢
  exact h.setSp _ hw hs2

theorem setPair (h : Simulates i R) {x y : Reg} (hx : x ∈ registersWritten i) (hy : y ∈ registersWritten i) (hs : R s u)
    {v v' : Word} (hv : v' = v) :
    R ((s.setReg x (hiByte v)).setReg y (loByte v)) ((u.setReg x (hiByte v')).setReg y (loByte v')) := by
  subst hv
  exact h.setReg _ hy (h.setReg _ hx hs)

/-- A and the flags together. -/
theorem setResult (h : Simulates i R) (ha : .a ∈ registersWritten i) (hf : flagEffect i = .all) (hs : R s u) (v : Byte)
    (f : Flags) : R ((s.setReg .a v).setFlags f) ((u.setReg .a v).setFlags f) :=
  h.setFlags (by rw [hf]; trivial) (h.setReg v ha hs)

theorem addA (h : Simulates i R) (ha : .a ∈ registersWritten i) (hf : flagEffect i = .all) (hs : R s u) {v v' : Byte}
    (hv : v' = v) {c c' : Bool} (hc : c' = c) : R (s.addA v c) (u.addA v' c') := by
  subst hv hc
  rw [State.addA, State.addA, h.a hs]
  exact h.setResult ha hf hs _ _

theorem subA (h : Simulates i R) (ha : .a ∈ registersWritten i) (hf : flagEffect i = .all) (hs : R s u) {v v' : Byte}
    (hv : v' = v) {c c' : Bool} (hc : c' = c) : R (s.subA v c) (u.subA v' c') := by
  subst hv hc
  rw [State.subA, State.subA, h.a hs]
  exact h.setResult ha hf hs _ _

theorem cmpA (h : Simulates i R) (hf : flagEffect i = .all) (hs : R s u) {v v' : Byte} (hv : v' = v) :
    R (s.cmpA v) (u.cmpA v') := by
  subst hv
  rw [State.cmpA, State.cmpA, h.a hs]
  exact h.setFlags (by rw [hf]; trivial) hs

theorem andA (h : Simulates i R) (ha : .a ∈ registersWritten i) (hf : flagEffect i = .all) (hs : R s u) {v v' : Byte}
    (hv : v' = v) : R (s.andA v) (u.andA v') := by
  subst hv
  rw [State.andA, State.andA, h.a hs, h.platform hs]
  exact h.setResult ha hf hs _ _

theorem xorA (h : Simulates i R) (ha : .a ∈ registersWritten i) (hf : flagEffect i = .all) (hs : R s u) {v v' : Byte}
    (hv : v' = v) : R (s.xorA v) (u.xorA v') := by
  subst hv
  rw [State.xorA, State.xorA, h.a hs]
  exact h.setResult ha hf hs _ _

theorem orA (h : Simulates i R) (ha : .a ∈ registersWritten i) (hf : flagEffect i = .all) (hs : R s u) {v v' : Byte}
    (hv : v' = v) : R (s.orA v) (u.orA v') := by
  subst hv
  rw [State.orA, State.orA, h.a hs]
  exact h.setResult ha hf hs _ _

theorem decimalAdjust (h : Simulates i R) (ha : .a ∈ registersWritten i) (hf : flagEffect i = .all) (hs : R s u) :
    R s.decimalAdjust u.decimalAdjust := by
  rw [State.decimalAdjust, State.decimalAdjust, h.a hs, h.flags hs]
  exact h.setResult ha hf hs _ _

/-- CY alone. -/
theorem setCarry (h : Simulates i R) (hf : flagEffect i = .carryOnly) (hs : R s u) {b b' : Bool} (hb : b' = b) :
    R (s.setCarry b) (u.setCarry b') := by
  subst hb
  rw [State.setCarry, State.setCarry, h.flags hs]
  exact h.setFlags (by rw [hf]; rfl) hs

theorem setRotate (h : Simulates i R) (ha : .a ∈ registersWritten i) (hf : flagEffect i = .carryOnly) (hs : R s u)
    {v v' : Byte} (hv : v' = v) {b b' : Bool} (hb : b' = b) : R (s.setRotate v b) (u.setRotate v' b') := by
  subst hv
  exact h.setCarry hf (h.setReg v' ha hs) hb

theorem dad (h : Simulates i R) (hh : .h ∈ registersWritten i) (hl : .l ∈ registersWritten i)
    (hf : flagEffect i = .carryOnly) (hs : R s u) {v v' : Word} (hv : v' = v) : R (s.dad v) (u.dad v') := by
  subst hv
  rw [State.dad, State.dad, h.hl hs]
  exact h.setCarry hf (h.setPair hh hl hs rfl) rfl

theorem jumpIf (h : Simulates i R) (hw : writesPc i = true) (hs : R s u) (cond : Cond) (target : Word) :
    R (s.jumpIf cond target) (u.jumpIf cond target) := by
  rw [State.jumpIf, State.jumpIf, h.flags hs]
  split
  · exact h.tick _ (h.setPc _ hw hs)
  · exact h.tick _ hs

theorem callTo (h : Simulates i R) (hsp : writesSp i = true) (hpc : writesPc i = true) (hs : R s u) (target : Word) :
    R (s.callTo target) (u.callTo target) :=
  h.setPc _ hpc (h.push16 hsp hs (h.pc hs))

theorem callIf (h : Simulates i R) (hsp : writesSp i = true) (hpc : writesPc i = true) (hs : R s u) (cond : Cond)
    (target : Word) : R (s.callIf cond target) (u.callIf cond target) := by
  rw [State.callIf, State.callIf, h.flags hs]
  split
  · exact h.tick _ (h.callTo hsp hpc hs target)
  · exact h.tick _ hs

theorem returnTo (h : Simulates i R) (hsp : writesSp i = true) (hpc : writesPc i = true) (hs : R s u) :
    R s.returnTo u.returnTo := by
  obtain ⟨hv, hp⟩ := h.pop16 hsp hs
  rw [State.returnTo, State.returnTo, hv]
  exact h.setPc _ hpc hp

theorem returnIf (h : Simulates i R) (hsp : writesSp i = true) (hpc : writesPc i = true) (hs : R s u) (cond : Cond) :
    R (s.returnIf cond) (u.returnIf cond) := by
  rw [State.returnIf, State.returnIf, h.flags hs]
  split
  · exact h.tick _ (h.returnTo hsp hpc hs)
  · exact h.tick _ hs

theorem loadA (h : Simulates i R) (ha : .a ∈ registersWritten i) (hs : R s u) {a a' : Word} (haddr : a' = a) :
    R (loadA a s) (loadA a' u) := by
  obtain ⟨hv, hm⟩ := h.readMem hs haddr
  rw [Machine.loadA, Machine.loadA, hv]
  exact h.setReg _ ha hm

/-- INR r and DCR r: a register, and flags that keep CY. -/
theorem setCounted (h : Simulates i R) {r : Reg} (hr : r ∈ registersWritten i) (hf : flagEffect i = .allButCarry)
    (hs : R s u) {k k' : Byte × Flags} (hk : k' = k) (hc : k.2.carry = s.flags.carry) :
    R ((s.setReg r k.1).setFlags k.2) ((u.setReg r k'.1).setFlags k'.2) := by
  subst hk
  refine h.setFlags ?_ (h.setReg _ hr hs)
  rw [hf]
  exact hc.trans (congrArg Flags.carry (s.setReg_flags r k'.1).symm)

/-- INR M and DCR M: `count` gives the byte written back and flags that keep CY. -/
theorem countMem (h : Simulates i R) (hf : flagEffect i = .allButCarry) (hs : R s u) {count : Flags → Byte → Byte × Flags}
    (hc : ∀ f v, (count f v).2.carry = f.carry) :
    R (((s.readMem s.hl).2.writeMem s.hl (count s.flags (s.readMem s.hl).1).1).setFlags
        (count s.flags (s.readMem s.hl).1).2)
      (((u.readMem u.hl).2.writeMem u.hl (count u.flags (u.readMem u.hl).1).1).setFlags
        (count u.flags (u.readMem u.hl).1).2) := by
  obtain ⟨hv, hm⟩ := h.readMem hs (h.hl hs)
  rw [hv, h.flags hs]
  refine h.setFlags ?_ (h.writeMem hm (h.hl hs) rfl)
  have hbus := (readMem_busOnly s s.hl).trans (writeMem_busOnly _ s.hl (count s.flags (s.readMem s.hl).1).1)
  have hflags := congrArg Cpu.flags hbus.cpu
  rw [hf]
  exact (hc _ _).trans (congrArg Flags.carry hflags.symm)

end Simulates

/-! ### Every instruction -/

/-- No instruction faults or is refused (60_exceptions.md R300, R301). -/
theorem exec_completes (i : Instr) (s : State) : ∃ t, exec i s = .next t := by
  cases i <;> exact ⟨_, rfl⟩

/-- Two runs of an instruction that begin related end related. -/
theorem exec_simulates {i : Instr} {R : State → State → Prop} (h : Simulates i R) {s u t w : State} (hs : R s u)
    (ht : exec i s = .next t) (hw : exec i u = .next w) : R t w := by
  cases i <;> cases ht <;> cases hw
  case movRR dst src =>
    rw [h.regs hs]
    exact h.tick _ (h.setReg _ (.head _) hs)
  case movMR src => exact h.tick _ (h.writeMem hs (h.hl hs) (congrFun (h.regs hs) src))
  case movRM dst =>
    obtain ⟨hv, hm⟩ := h.readMem hs (h.hl hs)
    rw [hv]
    exact h.tick _ (h.setReg _ (.head _) hm)
  case mviR => exact h.tick _ (h.setReg _ (.head _) hs)
  case mviM => exact h.tick _ (h.writeMem hs (h.hl hs) rfl)
  case lda => exact h.tick _ (h.loadA (.head _) hs rfl)
  case ldaxB => exact h.tick _ (h.loadA (.head _) hs (h.bc hs))
  case ldaxD => exact h.tick _ (h.loadA (.head _) hs (h.de hs))
  case lhld =>
    obtain ⟨hlo, hs1⟩ := h.readMem hs rfl
    obtain ⟨hhi, hs2⟩ := h.readMem hs1 rfl
    exact h.tick _ (h.setPair (.head _) (.tail _ (.head _)) hs2 (congrArg₂ mkWord hhi hlo))
  case lxiH | lxiD | lxiB => exact h.tick _ (h.setPair (.head _) (.tail _ (.head _)) hs rfl)
  case lxiSp => exact h.tick _ (h.setSp _ rfl hs)
  case shld =>
    exact h.tick _ (h.writeMem (h.writeMem hs rfl (congrFun (h.regs hs) .l)) rfl (congrFun (h.regs hs) .h))
  case sta => exact h.tick _ (h.writeMem hs rfl (h.a hs))
  case staxB => exact h.tick _ (h.writeMem hs (h.bc hs) (h.a hs))
  case staxD => exact h.tick _ (h.writeMem hs (h.de hs) (h.a hs))
  case sphl =>
    rw [h.hl hs]
    exact h.tick _ (h.setSp _ rfl hs)
  case xchg =>
    exact h.tick _ (h.setPair (.head _) (.tail _ (.head _))
      (h.setPair (.tail _ (.tail _ (.head _))) (.tail _ (.tail _ (.tail _ (.head _)))) hs (h.de hs)) (h.hl hs))
  case xthl =>
    obtain ⟨hlo, hs1⟩ := h.readStack hs (h.sp hs)
    obtain ⟨hhi, hs2⟩ := h.readStack hs1 (congrArg (· + 1) (h.sp hs))
    have hs3 := h.write (s.sp + 1) s.h (.stackWrite (s.sp + 1) s.h) hs2
    have hs4 := h.write s.sp s.l (.stackWrite s.sp s.l) hs3
    refine h.tick _ (h.setPair (.head _) (.tail _ (.head _)) ?_ (congrArg₂ mkWord hhi hlo))
    have hh : u.h = s.h := congrFun (h.regs hs) .h
    have hl : u.l = s.l := congrFun (h.regs hs) .l
    simp only [h.sp hs, hh, hl, State.writeStack] at hs4 ⊢
    exact hs4
  case inPort port =>
    obtain ⟨hv, hm⟩ := h.input port (.input port) hs
    simp only [State.readPort, hv]
    exact h.tick _ (h.setReg _ (.head _) hm)
  case outPort port =>
    simp only [State.writePort, h.a hs]
    exact h.tick _ (h.emit _ hs)
  case hlt => exact h.tick _ (h.emit _ (h.halt rfl hs))
  case stc => exact h.tick _ (h.setCarry rfl hs rfl)
  case cmc => exact h.tick _ (h.setCarry rfl hs (congrArg (fun f => !f.carry) (h.flags hs)))
  case ei =>
    have hd : eiHoldsOff u.platform.eiDelay = eiHoldsOff s.platform.eiDelay := by rw [h.platform hs]
    rw [hd]
    exact h.tick _ (h.enable _ rfl hs)
  case di => exact h.tick _ (h.disable rfl hs)
  case nop => exact h.tick _ hs
  case jmp => exact h.tick _ (h.setPc _ rfl hs)
  case jc | jnc | jz | jnz | jp | jm | jpe | jpo => exact h.jumpIf rfl hs _ _
  case pchl =>
    rw [h.hl hs]
    exact h.tick _ (h.setPc _ rfl hs)
  case call addr => exact h.tick _ (h.callTo rfl rfl hs addr)
  case cc | cnc | cz | cnz | cp | cm | cpe | cpo => exact h.callIf rfl rfl hs _ _
  case ret => exact h.tick _ (h.returnTo rfl rfl hs)
  case rc | rnc | rz | rnz | rp | rm | rpe | rpo => exact h.returnIf rfl rfl hs _
  case rst vvv => exact h.tick _ (h.callTo rfl rfl hs _)
  case addR src => exact h.tick _ (h.addA (.head _) rfl hs (congrFun (h.regs hs) src) rfl)
  case adcR src =>
    exact h.tick _ (h.addA (.head _) rfl hs (congrFun (h.regs hs) src) (congrArg Flags.carry (h.flags hs)))
  case addM =>
    obtain ⟨hv, hm⟩ := h.readMem hs (h.hl hs)
    exact h.tick _ (h.addA (.head _) rfl hm hv rfl)
  case adcM =>
    obtain ⟨hv, hm⟩ := h.readMem hs (h.hl hs)
    exact h.tick _ (h.addA (.head _) rfl hm hv (congrArg Flags.carry (h.flags hs)))
  case adi => exact h.tick _ (h.addA (.head _) rfl hs rfl rfl)
  case aci => exact h.tick _ (h.addA (.head _) rfl hs rfl (congrArg Flags.carry (h.flags hs)))
  case dadB => exact h.tick _ (h.dad (.head _) (.tail _ (.head _)) rfl hs (h.bc hs))
  case dadD => exact h.tick _ (h.dad (.head _) (.tail _ (.head _)) rfl hs (h.de hs))
  case dadH => exact h.tick _ (h.dad (.head _) (.tail _ (.head _)) rfl hs (h.hl hs))
  case dadSp => exact h.tick _ (h.dad (.head _) (.tail _ (.head _)) rfl hs (h.sp hs))
  case subR src => exact h.tick _ (h.subA (.head _) rfl hs (congrFun (h.regs hs) src) rfl)
  case sbbR src =>
    exact h.tick _ (h.subA (.head _) rfl hs (congrFun (h.regs hs) src) (congrArg Flags.carry (h.flags hs)))
  case subM =>
    obtain ⟨hv, hm⟩ := h.readMem hs (h.hl hs)
    exact h.tick _ (h.subA (.head _) rfl hm hv rfl)
  case sbbM =>
    obtain ⟨hv, hm⟩ := h.readMem hs (h.hl hs)
    exact h.tick _ (h.subA (.head _) rfl hm hv (congrArg Flags.carry (h.flags hs)))
  case sui => exact h.tick _ (h.subA (.head _) rfl hs rfl rfl)
  case sbi => exact h.tick _ (h.subA (.head _) rfl hs rfl (congrArg Flags.carry (h.flags hs)))
  case daa => exact h.tick _ (h.decimalAdjust (.head _) rfl hs)
  case pushB => exact h.tick _ (h.push16 rfl hs (h.bc hs))
  case pushD => exact h.tick _ (h.push16 rfl hs (h.de hs))
  case pushH => exact h.tick _ (h.push16 rfl hs (h.hl hs))
  case pushPsw => exact h.tick _ (h.push16 rfl hs (congrArg₂ mkWord (h.a hs) (congrArg Flags.toByte (h.flags hs))))
  case popB | popD | popH =>
    obtain ⟨hv, hp⟩ := h.pop16 rfl hs
    exact h.tick _ (h.setPair (.head _) (.tail _ (.head _)) hp hv)
  case popPsw =>
    obtain ⟨hv, hp⟩ := h.pop16 rfl hs
    rw [hv]
    exact h.tick _ (h.setResult (.head _) rfl hp _ _)
  case anaR src => exact h.tick _ (h.andA (.head _) rfl hs (congrFun (h.regs hs) src))
  case anaM =>
    obtain ⟨hv, hm⟩ := h.readMem hs (h.hl hs)
    exact h.tick _ (h.andA (.head _) rfl hm hv)
  case ani => exact h.tick _ (h.andA (.head _) rfl hs rfl)
  case xraR src => exact h.tick _ (h.xorA (.head _) rfl hs (congrFun (h.regs hs) src))
  case xraM =>
    obtain ⟨hv, hm⟩ := h.readMem hs (h.hl hs)
    exact h.tick _ (h.xorA (.head _) rfl hm hv)
  case xri => exact h.tick _ (h.xorA (.head _) rfl hs rfl)
  case oraR src => exact h.tick _ (h.orA (.head _) rfl hs (congrFun (h.regs hs) src))
  case oraM =>
    obtain ⟨hv, hm⟩ := h.readMem hs (h.hl hs)
    exact h.tick _ (h.orA (.head _) rfl hm hv)
  case ori => exact h.tick _ (h.orA (.head _) rfl hs rfl)
  case cmpR src => exact h.tick _ (h.cmpA rfl hs (congrFun (h.regs hs) src))
  case cmpM =>
    obtain ⟨hv, hm⟩ := h.readMem hs (h.hl hs)
    exact h.tick _ (h.cmpA rfl hm hv)
  case cpi => exact h.tick _ (h.cmpA rfl hs rfl)
  case cma =>
    rw [h.a hs]
    exact h.tick _ (h.setReg _ (.head _) hs)
  case rlc | rrc =>
    rw [h.a hs]
    exact h.tick _ (h.setRotate (.head _) rfl hs rfl rfl)
  case ral | rar =>
    rw [h.a hs, h.flags hs]
    exact h.tick _ (h.setRotate (.head _) rfl hs rfl rfl)
  case inrR reg =>
    exact h.tick _ (h.setCounted (.head _) rfl hs
      (congrArg₂ incFlags (h.flags hs) (congrFun (h.regs hs) reg)) (incFlags_carry _ _))
  case dcrR reg =>
    exact h.tick _ (h.setCounted (.head _) rfl hs
      (congrArg₂ decFlags (h.flags hs) (congrFun (h.regs hs) reg)) (decFlags_carry _ _))
  case inrM => exact h.tick _ (h.countMem rfl hs incFlags_carry)
  case dcrM => exact h.tick _ (h.countMem rfl hs decFlags_carry)
  case inxB | dcxB => exact h.tick _ (h.setPair (.head _) (.tail _ (.head _)) hs (by rw [h.bc hs]))
  case inxD | dcxD => exact h.tick _ (h.setPair (.head _) (.tail _ (.head _)) hs (by rw [h.de hs]))
  case inxH | dcxH => exact h.tick _ (h.setPair (.head _) (.tail _ (.head _)) hs (by rw [h.hl hs]))
  case inxSp | dcxSp =>
    rw [h.sp hs]
    exact h.tick _ (h.setSp _ rfl hs)

end Sys2Proof.Machine
end

section
/-! What follows from `exec_simulates`: the frame of every instruction, that INTE is invisible to programs, and that Wait
states only delay. -/

namespace Sys2Proof.Machine

/-! ### A machine-cycle boundary, case by case (20_memory.md R72; 60_exceptions.md R298) -/

theorem beginCycle_cut {s : State} {k : Abandon} (h : s.abandoned = some k) : s.beginCycle = s := by
  unfold State.beginCycle
  split
  · rfl
  · rename_i hn
    exact absurd (h.symm.trans hn) (by simp)

/-- A boundary with RESET cuts the instruction short (70_reset_and_hazards.md R322). -/
theorem beginCycle_reset {s : State} {slot : BusSlot} {rest : List BusSlot} (ha : s.abandoned = none)
    (hs : s.slots = slot :: rest) (hr : slot.reset = true) :
    s.beginCycle = { s with slots := rest, abandoned := some .reset } := by
  unfold State.beginCycle
  split
  · rename_i hn
    exact absurd (ha.symm.trans hn) (by simp)
  · split
    · rename_i hnil
      exact absurd (hs.symm.trans hnil) (by simp)
    · rename_i hcons
      obtain ⟨rfl, rfl⟩ := List.cons.inj (hs.symm.trans hcons)
      rw [if_pos hr]

/-- A boundary without RESET: the Hold, then the Wait. -/
theorem beginCycle_slot {s : State} {slot : BusSlot} {rest : List BusSlot} (ha : s.abandoned = none)
    (hs : s.slots = slot :: rest) (hr : slot.reset = false) :
    s.beginCycle = ({ s with slots := rest }.slotHold slot.hold).slotWait slot.waits := by
  unfold State.beginCycle
  split
  · rename_i hn
    exact absurd (ha.symm.trans hn) (by simp)
  · split
    · rename_i hnil
      exact absurd (hs.symm.trans hnil) (by simp)
    · rename_i hcons
      obtain ⟨rfl, rfl⟩ := List.cons.inj (hs.symm.trans hcons)
      rw [if_neg (by simp [hr])]

/-! ### The slots a bus cycle uses up -/

/-- `t` has only slots of `s` left, and READY is missing in `t` only where it was in `s` or where a slot of `s` withholds
it for ever (20_memory.md R72, U8). -/
structure SlotsSpent (s t : State) : Prop where
  slots : ∀ slot ∈ t.slots, slot ∈ s.slots
  notReady : t.abandoned = some .notReady → s.abandoned = some .notReady ∨ ∃ slot ∈ s.slots, slot.waits = none

theorem SlotsSpent.of_eq {s t : State} (hs : t.slots = s.slots) (ha : t.abandoned = s.abandoned) : SlotsSpent s t :=
  ⟨fun _ h => hs ▸ h, fun h => .inl (ha ▸ h)⟩

theorem SlotsSpent.refl (s : State) : SlotsSpent s s := .of_eq rfl rfl

theorem SlotsSpent.trans {s t u : State} (h : SlotsSpent s t) (k : SlotsSpent t u) : SlotsSpent s u := by
  refine ⟨fun slot hslot => h.slots slot (k.slots slot hslot), fun hu => ?_⟩
  rcases k.notReady hu with ht | ⟨slot, hslot, hw⟩
  · exact h.notReady ht
  · exact .inr ⟨slot, h.slots slot hslot, hw⟩

theorem AnswerOnly.slotsSpent {s t : State} (h : AnswerOnly s t) : SlotsSpent s t := .of_eq h.slots h.abandoned

theorem rawWrite_slotsSpent (s : State) (a : Word) (v : Byte) : SlotsSpent s (s.rawWrite a v) :=
  .of_eq (rawWrite_slots s a v) (rawWrite_abandoned s a v)

theorem supply_slotsSpent (bytes : List Byte) (s : State) : SlotsSpent s (supply bytes s).2 := by
  cases bytes <;> exact .of_eq rfl rfl

/-- The holder of the bus uses up no slot. -/
theorem dmaAccess_slots (s : State) (x : DmaAccess) :
    (s.dmaAccess x).slots = s.slots ∧ (s.dmaAccess x).abandoned = s.abandoned := by
  cases x with
  | read a => exact ⟨rawRead_slots s a, rawRead_abandoned s a⟩
  | write a v => exact ⟨rawWrite_slots s a v, rawWrite_abandoned s a v⟩
  | input p => exact ⟨(rawInput_answerOnly s p).slots, (rawInput_answerOnly s p).abandoned⟩
  | output p v => exact ⟨rfl, rfl⟩

theorem dmaAccesses_slots (accesses : List DmaAccess) : ∀ s : State,
    (accesses.foldl State.dmaAccess s).slots = s.slots ∧
      (accesses.foldl State.dmaAccess s).abandoned = s.abandoned := by
  induction accesses with
  | nil => exact fun s => ⟨rfl, rfl⟩
  | cons x rest ih =>
    intro s
    obtain ⟨hslots, habandoned⟩ := dmaAccess_slots s x
    obtain ⟨ihslots, ihabandoned⟩ := ih (s.dmaAccess x)
    exact ⟨ihslots.trans hslots, ihabandoned.trans habandoned⟩

@[simp] theorem enterHold_slots (s : State) (g : Hold) : (s.enterHold g).slots = s.slots :=
  (dmaAccesses_slots g.accesses { s with hlda := true }).1

@[simp] theorem enterHold_abandoned (s : State) (g : Hold) : (s.enterHold g).abandoned = s.abandoned :=
  (dmaAccesses_slots g.accesses { s with hlda := true }).2

@[simp] theorem slotHold_slots (s : State) (hold : Option Hold) : (s.slotHold hold).slots = s.slots := by
  cases hold with
  | none => rfl
  | some g => exact enterHold_slots s g

@[simp] theorem slotHold_abandoned (s : State) (hold : Option Hold) : (s.slotHold hold).abandoned = s.abandoned := by
  cases hold with
  | none => rfl
  | some g => exact enterHold_abandoned s g

/-- A Wait that ends leaves the instruction as it is; one that does not end cuts it short. -/
theorem slotWait_spent (s : State) (waits : Option Nat) :
    (s.slotWait waits).slots = s.slots ∧
      ((s.slotWait waits).abandoned = s.abandoned ∨ (waits = none ∧ (s.slotWait waits).abandoned = some .notReady)) := by
  cases waits with
  | none => exact ⟨rfl, .inr ⟨rfl, rfl⟩⟩
  | some n =>
    obtain ⟨ws, h⟩ := slotWait_ends s n
    rw [h]
    exact ⟨rfl, .inl rfl⟩

theorem beginCycle_slotsSpent (s : State) : SlotsSpent s s.beginCycle := by
  cases ha : s.abandoned with
  | some k => rw [beginCycle_cut ha]; exact .refl s
  | none =>
    cases hs : s.slots with
    | nil => rw [beginCycle_undisturbed ⟨hs, ha⟩]; exact .refl s
    | cons slot rest =>
      have hrest : ∀ x ∈ rest, x ∈ s.slots := fun x hx => by simp [hs, hx]
      cases hr : slot.reset with
      | true =>
        rw [beginCycle_reset ha hs hr]
        exact ⟨hrest, fun h => by simp at h⟩
      | false =>
        rw [beginCycle_slot ha hs hr]
        obtain ⟨hslots, hcut⟩ := slotWait_spent ({ s with slots := rest }.slotHold slot.hold) slot.waits
        rw [slotHold_slots] at hslots
        rw [slotHold_abandoned] at hcut
        refine ⟨fun x hx => hrest x ?_, fun h => ?_⟩
        · rw [hslots] at hx
          exact hx
        rcases hcut with hsame | ⟨hw, -⟩
        · exact .inl (hsame.symm.trans h)
        · exact .inr ⟨slot, by simp [hs], hw⟩

theorem readCycle_slotsSpent (s : State) {src : State → Byte × State} (mk : Byte → BusCycle)
    (h : ∀ u, SlotsSpent u (src u).2) : SlotsSpent s (s.readCycle src mk).2 := by
  cases hb : s.beginCycle.abandoned with
  | some k => rw [readCycle_cut src mk hb]; exact beginCycle_slotsSpent s
  | none => rw [readCycle_takes src mk hb]; exact (beginCycle_slotsSpent s).trans ((h _).trans (.of_eq rfl rfl))

theorem writeCycle_slotsSpent (s : State) {dst : State → State} (c : BusCycle) (h : ∀ u, SlotsSpent u (dst u)) :
    SlotsSpent s (s.writeCycle dst c) := by
  cases hb : s.beginCycle.abandoned with
  | some k => rw [writeCycle_cut dst c hb]; exact beginCycle_slotsSpent s
  | none => rw [writeCycle_takes dst c hb]; exact (beginCycle_slotsSpent s).trans ((h _).trans (.of_eq rfl rfl))

theorem readMem_slotsSpent (s : State) (a : Word) : SlotsSpent s (s.readMem a).2 :=
  readCycle_slotsSpent s _ fun u => (rawRead_answerOnly u a).slotsSpent

/-! ### A property of one run -/

/-- A property that the updates `i` may make keep, and every bus cycle. -/
structure Keeps (i : Instr) (P : State → Prop) : Prop where
  bus : ∀ {s t}, BusOnly s t → SlotsSpent s t → P s → P t
  setReg : ∀ {s r} (v : Byte), r ∈ registersWritten i → P s → P (s.setReg r v)
  setSp : ∀ {s} (v : Word), writesSp i = true → P s → P (s.setSp v)
  setPc : ∀ {s} (v : Word), writesPc i = true → P s → P (s.setPc v)
  setFlags : ∀ {s} {f : Flags}, (flagEffect i).allows s.flags f → P s → P (s.setFlags f)
  halt : ∀ {s}, i = .hlt → P s → P { s with halted := true }
  enable : ∀ {s} (b : Bool), i = .ei → P s → P { s with inte := true, eiInhibit := b }
  disable : ∀ {s}, i = .di → P s → P { s with inte := false }

/-- A run beside itself. -/
theorem Keeps.simulates {i : Instr} {P : State → Prop} (h : Keeps i P) : Simulates i fun s u => u = s ∧ P s where
  regs := fun ⟨e, _⟩ => e ▸ rfl
  sp := fun ⟨e, _⟩ => e ▸ rfl
  pc := fun ⟨e, _⟩ => e ▸ rfl
  flags := fun ⟨e, _⟩ => e ▸ rfl
  platform := fun ⟨e, _⟩ => e ▸ rfl
  setReg := fun v hr ⟨e, hp⟩ => ⟨e ▸ rfl, h.setReg v hr hp⟩
  setSp := fun v hw ⟨e, hp⟩ => ⟨e ▸ rfl, h.setSp v hw hp⟩
  setPc := fun v hw ⟨e, hp⟩ => ⟨e ▸ rfl, h.setPc v hw hp⟩
  setFlags := fun hf ⟨e, hp⟩ => ⟨e ▸ rfl, h.setFlags hf hp⟩
  halt := fun hi ⟨e, hp⟩ => ⟨e ▸ rfl, h.halt hi hp⟩
  enable := fun b hi ⟨e, hp⟩ => ⟨e ▸ rfl, h.enable b hi hp⟩
  disable := fun hi ⟨e, hp⟩ => ⟨e ▸ rfl, h.disable hi hp⟩
  tick := fun n ⟨e, hp⟩ => ⟨e ▸ rfl, h.bus (tick_busOnly _ n) (.of_eq rfl rfl) hp⟩
  read := fun a mk ⟨e, hp⟩ =>
    ⟨e ▸ rfl, e ▸ rfl, h.bus (readCycle_busOnly _ mk fun u => rawRead_busOnly u a)
      (readCycle_slotsSpent _ mk fun u => (rawRead_answerOnly u a).slotsSpent) hp⟩
  input := fun p mk ⟨e, hp⟩ =>
    ⟨e ▸ rfl, e ▸ rfl, h.bus (readCycle_busOnly _ mk fun u => rawInput_busOnly u p)
      (readCycle_slotsSpent _ mk fun u => (rawInput_answerOnly u p).slotsSpent) hp⟩
  write := fun a v c ⟨e, hp⟩ =>
    ⟨e ▸ rfl, h.bus (writeCycle_busOnly _ c fun u => rawWrite_busOnly u a v)
      (writeCycle_slotsSpent _ c fun u => rawWrite_slotsSpent u a v) hp⟩
  emit := fun c ⟨e, hp⟩ =>
    ⟨e ▸ rfl, h.bus (writeCycle_busOnly _ c .refl) (writeCycle_slotsSpent _ c .refl) hp⟩

theorem exec_keeps {i : Instr} {P : State → Prop} (h : Keeps i P) {s t : State} (hs : P s) (ht : exec i s = .next t) :
    P t :=
  (exec_simulates h.simulates ⟨rfl, hs⟩ ht ht).2

/-! ### The frame of an instruction -/

theorem FlagEffect.allows_refl (k : FlagEffect) (f : Flags) : k.allows f f := by
  cases k with
  | all => trivial
  | carryOnly | allButCarry | none => rfl

theorem FlagEffect.allows_trans {k : FlagEffect} {f g h : Flags} (hfg : k.allows f g) (hgh : k.allows g h) :
    k.allows f h := by
  cases k with
  | all => trivial
  | carryOnly =>
    change g = { f with carry := g.carry } at hfg
    change h = { g with carry := h.carry } at hgh
    change h = { f with carry := h.carry }
    rw [hgh, hfg]
  | allButCarry => exact Eq.trans hgh hfg
  | none => exact Eq.trans hgh hfg

/-- What `i` leaves of the processor of `s` in `t`. -/
structure CpuFrame (i : Instr) (s t : State) : Prop where
  regs : ∀ r, r ∉ registersWritten i → t.getReg r = s.getReg r
  sp : writesSp i = false → t.sp = s.sp
  pc : writesPc i = false → t.pc = s.pc
  flags : (flagEffect i).allows s.flags t.flags
  inte : i ≠ .ei → i ≠ .di → t.inte = s.inte
  halted : i ≠ .hlt → t.halted = s.halted
  ir : t.ir = s.ir

/-- The frame looks at the processor only. -/
theorem CpuFrame.of_cpu_eq {i : Instr} {s t u : State} (h : CpuFrame i s t) (hu : u.cpu = t.cpu) : CpuFrame i s u := by
  obtain ⟨hr, hsp, hpc, hf, hi, hh, -, hir⟩ := State.of_cpu_eq hu
  exact ⟨fun r hn => (hr r).trans (h.regs r hn), fun hw => hsp.trans (h.sp hw), fun hw => hpc.trans (h.pc hw),
    hf ▸ h.flags, fun h1 h2 => hi.trans (h.inte h1 h2), fun h1 => hh.trans (h.halted h1), hir.trans h.ir⟩

theorem CpuFrame.setReg {i : Instr} {s t : State} (h : CpuFrame i s t) {r : Reg} (v : Byte)
    (hr : r ∈ registersWritten i) : CpuFrame i s (t.setReg r v) where
  regs := fun q hq => by
    have hqr : q ≠ r := by
      rintro rfl
      exact hq hr
    rw [State.getReg_setReg, if_neg hqr]
    exact h.regs q hq
  sp := fun hw => (t.setReg_sp r v).trans (h.sp hw)
  pc := fun hw => (t.setReg_pc r v).trans (h.pc hw)
  flags := (t.setReg_flags r v).symm ▸ h.flags
  inte := fun h1 h2 => (t.setReg_inte r v).trans (h.inte h1 h2)
  halted := fun h1 => (t.setReg_halted r v).trans (h.halted h1)
  ir := (t.setReg_ir r v).trans h.ir

theorem cpuFrame_keeps (i : Instr) (s : State) : Keeps i (CpuFrame i s) where
  bus := fun hb _ h => h.of_cpu_eq hb.cpu
  setReg := fun v hr h => h.setReg v hr
  setSp := fun _ hw h => ⟨h.regs, fun hn => absurd (hw.symm.trans hn) (by decide), h.pc, h.flags, h.inte, h.halted, h.ir⟩
  setPc := fun _ hw h => ⟨h.regs, h.sp, fun hn => absurd (hw.symm.trans hn) (by decide), h.flags, h.inte, h.halted, h.ir⟩
  setFlags := fun hf h => ⟨h.regs, h.sp, h.pc, FlagEffect.allows_trans h.flags hf, h.inte, h.halted, h.ir⟩
  halt := fun hi h => ⟨h.regs, h.sp, h.pc, h.flags, h.inte, fun hn => absurd hi hn, h.ir⟩
  enable := fun _ hi h => ⟨h.regs, h.sp, h.pc, h.flags, fun hn _ => absurd hi hn, h.halted, h.ir⟩
  disable := fun hi h => ⟨h.regs, h.sp, h.pc, h.flags, fun _ hn => absurd hi hn, h.halted, h.ir⟩

/-- Every instruction leaves what its lines of the tables do not name. -/
theorem exec_cpuFrame {i : Instr} {s t : State} (h : exec i s = .next t) : CpuFrame i s t :=
  exec_keeps (cpuFrame_keeps i s)
    ⟨fun _ _ => rfl, fun _ => rfl, fun _ => rfl, FlagEffect.allows_refl _ _, fun _ _ => rfl, fun _ => rfl, rfl⟩ h

theorem exec_slotsSpent {i : Instr} {s t : State} (h : exec i s = .next t) : SlotsSpent s t := by
  have hk : Keeps i (SlotsSpent s) := {
    bus := fun _ hs h => h.trans hs
    setReg := fun {t r} v _ h => h.trans (.of_eq (t.setReg_slots r v) (t.setReg_abandoned r v))
    setSp := fun _ _ h => h.trans (.of_eq rfl rfl)
    setPc := fun _ _ h => h.trans (.of_eq rfl rfl)
    setFlags := fun _ h => h.trans (.of_eq rfl rfl)
    halt := fun _ h => h.trans (.of_eq rfl rfl)
    enable := fun _ _ h => h.trans (.of_eq rfl rfl)
    disable := fun _ h => h.trans (.of_eq rfl rfl) }
  exact exec_keeps hk (.refl s) h

/-! ### Updates that nothing behind the bus sees -/

/-- `g` touches nothing that memory, devices and the holder of the bus look at or change. -/
structure Unseen (g : State → State) : Prop where
  platform : ∀ s, (g s).platform = s.platform
  mem : ∀ s, (g s).mem = s.mem
  answers : ∀ s, (g s).answers = s.answers
  draws : ∀ s, (g s).draws = s.draws
  setMem : ∀ s m, { g s with mem := m } = g { s with mem := m }
  setAnswers : ∀ s l, { g s with answers := l } = g { s with answers := l }
  setDraws : ∀ s n, { g s with draws := n } = g { s with draws := n }
  logCycle : ∀ s c, (g s).logCycle c = g (s.logCycle c)

namespace Unseen

variable {g : State → State}

theorem kindAt (h : Unseen g) (s : State) (a : Word) : (g s).kindAt a = s.kindAt a := kindAt_congr (h.platform s) a

theorem peek (h : Unseen g) (s : State) (a : Word) : (g s).peek a = s.peek a := by rw [State.peek, State.peek, h.mem]

theorem draw (h : Unseen g) (s : State) : (g s).draw = (s.draw.1, g s.draw.2) := by
  simp only [State.draw, h.draws, h.setDraws]

theorem deviceAnswer (h : Unseen g) (s : State) : (g s).deviceAnswer = (s.deviceAnswer.1, g s.deviceAnswer.2) := by
  cases ha : s.answers with
  | nil => simp only [State.deviceAnswer, h.answers, ha, h.draw]
  | cons v rest => simp only [State.deviceAnswer, h.answers, ha, h.setAnswers]

theorem rawRead (h : Unseen g) (a : Word) (s : State) : (g s).rawRead a = ((s.rawRead a).1, g (s.rawRead a).2) := by
  cases hk : s.kindAt a with
  | ram | rom => simp only [State.rawRead, h.kindAt, hk, h.peek]
  | device => simp only [State.rawRead, h.kindAt, hk, h.deviceAnswer]
  | absent => simp only [State.rawRead, h.kindAt, hk, h.draw]

theorem rawWrite (h : Unseen g) (a : Word) (v : Byte) (s : State) : (g s).rawWrite a v = g (s.rawWrite a v) := by
  cases hk : s.kindAt a with
  | ram => simp only [State.rawWrite, h.kindAt, hk, h.mem, h.setMem]
  | rom | device | absent => simp only [State.rawWrite, h.kindAt, hk]

theorem rawInput (h : Unseen g) (p : Byte) (s : State) : (g s).rawInput p = ((s.rawInput p).1, g (s.rawInput p).2) := by
  simp only [State.rawInput, h.platform]
  split
  · exact h.draw s
  · exact h.deviceAnswer s

theorem dmaAccess (h : Unseen g) (x : DmaAccess) (s : State) : (g s).dmaAccess x = g (s.dmaAccess x) := by
  cases x with
  | read a => simp only [State.dmaAccess, h.rawRead, h.logCycle]
  | write a v => simp only [State.dmaAccess, h.rawWrite, h.logCycle]
  | input p => simp only [State.dmaAccess, h.rawInput, h.logCycle]
  | output p v => simp only [State.dmaAccess, h.logCycle]

theorem dmaAccesses (h : Unseen g) (accesses : List DmaAccess) :
    ∀ s, accesses.foldl State.dmaAccess (g s) = g (accesses.foldl State.dmaAccess s) := by
  induction accesses with
  | nil => exact fun s => rfl
  | cons x rest ih =>
    intro s
    rw [List.foldl_cons, h.dmaAccess, ih, List.foldl_cons]

end Unseen

/-! ### INTE is invisible (10_state.md R33) -/

/-- The same state with the other or the same value of INTE. -/
def State.withInte (s : State) (b : Bool) : State := { s with inte := b }

theorem withInte_unseen (b : Bool) : Unseen (State.withInte · b) :=
  ⟨fun _ => rfl, fun _ => rfl, fun _ => rfl, fun _ => rfl, fun _ _ => rfl, fun _ _ => rfl, fun _ _ => rfl, fun _ _ => rfl⟩

theorem slotHold_withInte (s : State) (b : Bool) (hold : Option Hold) :
    (s.withInte b).slotHold hold = (s.slotHold hold).withInte b := by
  cases hold with
  | none => rfl
  | some g =>
    have h := (withInte_unseen b).dmaAccesses g.accesses { s with hlda := true }
    exact congrArg (fun t : State => (t.tick g.clocks).leaveHold) h

theorem slotWait_withInte (s : State) (b : Bool) (waits : Option Nat) :
    (s.withInte b).slotWait waits = (s.slotWait waits).withInte b := by
  cases waits with
  | none => rfl
  | some n =>
    simp only [State.slotWait]
    split <;> rfl

theorem beginCycle_withInte (s : State) (b : Bool) : (s.withInte b).beginCycle = s.beginCycle.withInte b := by
  cases ha : s.abandoned with
  | some k => rw [beginCycle_cut ha, beginCycle_cut (s := s.withInte b) ha]
  | none =>
    cases hs : s.slots with
    | nil => rw [beginCycle_undisturbed ⟨hs, ha⟩, beginCycle_undisturbed (s := s.withInte b) ⟨hs, ha⟩]
    | cons slot rest =>
      cases hr : slot.reset with
      | true =>
        rw [beginCycle_reset ha hs hr, beginCycle_reset (s := s.withInte b) ha hs hr]
        rfl
      | false =>
        rw [beginCycle_slot ha hs hr, beginCycle_slot (s := s.withInte b) ha hs hr, ← slotWait_withInte,
          ← slotHold_withInte]
        rfl

theorem readCycle_withInte (s : State) (b : Bool) {src : State → Byte × State} (mk : Byte → BusCycle)
    (h : ∀ u : State, src (u.withInte b) = ((src u).1, (src u).2.withInte b)) :
    (s.withInte b).readCycle src mk = ((s.readCycle src mk).1, (s.readCycle src mk).2.withInte b) := by
  have ha : (s.withInte b).beginCycle.abandoned = s.beginCycle.abandoned := by rw [beginCycle_withInte]; rfl
  cases hb : s.beginCycle.abandoned with
  | some k =>
    rw [readCycle_cut src mk hb, readCycle_cut src mk (ha.trans hb), beginCycle_withInte]
    rfl
  | none =>
    rw [readCycle_takes src mk hb, readCycle_takes src mk (ha.trans hb), beginCycle_withInte, h]
    rfl

theorem writeCycle_withInte (s : State) (b : Bool) {dst : State → State} (c : BusCycle)
    (h : ∀ u : State, dst (u.withInte b) = (dst u).withInte b) :
    (s.withInte b).writeCycle dst c = (s.writeCycle dst c).withInte b := by
  have ha : (s.withInte b).beginCycle.abandoned = s.beginCycle.abandoned := by rw [beginCycle_withInte]; rfl
  cases hb : s.beginCycle.abandoned with
  | some k => rw [writeCycle_cut dst c hb, writeCycle_cut dst c (ha.trans hb), beginCycle_withInte]
  | none =>
    rw [writeCycle_takes dst c hb, writeCycle_takes dst c (ha.trans hb), beginCycle_withInte, h]
    rfl

theorem withInte_simulates (i : Instr) : Simulates i fun s u => ∃ b, u = s.withInte b where
  regs := by rintro s _ ⟨b, rfl⟩; funext r; cases r <;> rfl
  sp := by rintro s _ ⟨b, rfl⟩; rfl
  pc := by rintro s _ ⟨b, rfl⟩; rfl
  flags := by rintro s _ ⟨b, rfl⟩; rfl
  platform := by rintro s _ ⟨b, rfl⟩; rfl
  setReg := by rintro s _ r v - ⟨b, rfl⟩; exact ⟨b, by cases r <;> rfl⟩
  setSp := by rintro s _ v - ⟨b, rfl⟩; exact ⟨b, rfl⟩
  setPc := by rintro s _ v - ⟨b, rfl⟩; exact ⟨b, rfl⟩
  setFlags := by rintro s _ f - ⟨b, rfl⟩; exact ⟨b, rfl⟩
  halt := by rintro s _ - ⟨b, rfl⟩; exact ⟨b, rfl⟩
  enable := by rintro s _ k - ⟨b, rfl⟩; exact ⟨true, rfl⟩
  disable := by rintro s _ - ⟨b, rfl⟩; exact ⟨false, rfl⟩
  tick := by rintro s _ n ⟨b, rfl⟩; exact ⟨b, rfl⟩
  read := by
    rintro s _ a mk ⟨b, rfl⟩
    rw [readCycle_withInte s b mk ((withInte_unseen b).rawRead a)]
    exact ⟨rfl, b, rfl⟩
  input := by
    rintro s _ p mk ⟨b, rfl⟩
    rw [readCycle_withInte s b mk ((withInte_unseen b).rawInput p)]
    exact ⟨rfl, b, rfl⟩
  write := by
    rintro s _ a v c ⟨b, rfl⟩
    exact ⟨b, writeCycle_withInte s b c ((withInte_unseen b).rawWrite a v)⟩
  emit := by
    rintro s _ c ⟨b, rfl⟩
    exact ⟨b, writeCycle_withInte s b c fun _ => rfl⟩

/-! ### Wait states only delay (20_memory.md R72) -/

/-- `u` with the coming slots `slots`, the Wait states `shown` more and their clocks counted. -/
def State.delayed (u : State) (slots : List BusSlot) (shown : List WaitState) : State :=
  { u with slots := slots, waitStates := u.waitStates ++ shown, clocks := u.clocks + waitClocks shown }

/-- A slot that brings Wait states at most. -/
def BusSlot.WaitsOnly (slot : BusSlot) : Prop := slot.reset = false ∧ slot.hold = none ∧ ∃ n, slot.waits = some n

/-- The Wait clocks of slots, taken together. -/
def slotClocks (slots : List BusSlot) : Nat := (slots.map fun slot => slot.waits.getD 0).sum

theorem slotClocks_append (x y : List BusSlot) : slotClocks (x ++ y) = slotClocks x + slotClocks y := by
  simp [slotClocks]

theorem waitClocks_append (x y : List WaitState) : waitClocks (x ++ y) = waitClocks x + waitClocks y := by
  simp [waitClocks]

theorem delayed_unseen (slots : List BusSlot) (shown : List WaitState) : Unseen (State.delayed · slots shown) :=
  ⟨fun _ => rfl, fun _ => rfl, fun _ => rfl, fun _ => rfl, fun _ _ => rfl, fun _ _ => rfl, fun _ _ => rfl, fun _ _ => rfl⟩

/-- The Wait states a slot shows add up to its clocks. -/
theorem slotWait_shows (s : State) (n : Nat) :
    ∃ ws, waitClocks ws = n ∧
      s.slotWait (some n) = { s with waitStates := s.waitStates ++ ws, clocks := s.clocks + waitClocks ws } := by
  obtain ⟨ws, h⟩ := slotWait_ends s n
  refine ⟨ws, ?_, h⟩
  have hn : (s.slotWait (some n)).clocks = s.clocks + n := by
    simp only [State.slotWait]
    split
    · rename_i h0
      simp [h0]
    · rfl
  rw [h] at hn
  exact Nat.add_left_cancel hn

/-- `s` is the run `u`, in which nothing intervenes, delayed by the Wait states of the slots used up since `slots₀`. -/
def DelayedRun (slots₀ : List BusSlot) (waits₀ : List WaitState) (s u : State) : Prop :=
  ∃ slots shown used, s = u.delayed slots shown ∧ slots₀ = used ++ slots ∧ waitClocks shown = slotClocks used ∧
    u.Undisturbed ∧ u.waitStates = waits₀

section
variable {slots₀ : List BusSlot} {waits₀ : List WaitState} {s u : State}

/-- An update that touches neither slots nor Wait states, and commutes with the delay. -/
theorem DelayedRun.update {f : State → State}
    (hf : ∀ (v : State) slots shown, f (v.delayed slots shown) = (f v).delayed slots shown)
    (hu : u.Undisturbed → (f u).Undisturbed) (hw : (f u).waitStates = u.waitStates) (h : DelayedRun slots₀ waits₀ s u) :
    DelayedRun slots₀ waits₀ (f s) (f u) := by
  obtain ⟨slots, shown, used, rfl, hslots, hclocks, hcalm, hwaits⟩ := h
  exact ⟨slots, shown, used, hf u slots shown, hslots, hclocks, hu hcalm, hw.trans hwaits⟩

/-- A boundary at which Wait states at most come. -/
theorem DelayedRun.beginCycle (h₀ : ∀ slot ∈ slots₀, slot.WaitsOnly) (h : DelayedRun slots₀ waits₀ s u) :
    DelayedRun slots₀ waits₀ s.beginCycle u := by
  obtain ⟨slots, shown, used, rfl, hslots, hclocks, hcalm, hwaits⟩ := h
  have ha : (u.delayed slots shown).abandoned = none := hcalm.2
  cases slots with
  | nil =>
    have hb : (u.delayed [] shown).beginCycle = u.delayed [] shown := beginCycle_undisturbed ⟨rfl, ha⟩
    exact ⟨[], shown, used, hb, hslots, hclocks, hcalm, hwaits⟩
  | cons slot rest =>
    obtain ⟨hreset, hhold, n, hn⟩ := h₀ slot (by simp [hslots])
    obtain ⟨ws, hws, hshow⟩ := slotWait_shows (u.delayed rest shown) n
    have hb : (u.delayed (slot :: rest) shown).beginCycle = (u.delayed rest shown).slotWait (some n) := by
      rw [beginCycle_slot ha rfl hreset, hhold, hn]
      rfl
    refine ⟨rest, shown ++ ws, used ++ [slot], ?_, by simp [hslots], ?_, hcalm, hwaits⟩
    · rw [hb, hshow]
      simp only [State.delayed, List.append_assoc, waitClocks_append, Nat.add_assoc]
    · rw [waitClocks_append, slotClocks_append, hclocks, hws]
      simp [slotClocks, hn]

theorem DelayedRun.abandoned (h : DelayedRun slots₀ waits₀ s u) : s.abandoned = none := by
  obtain ⟨slots, shown, used, rfl, -, -, hcalm, -⟩ := h
  exact hcalm.2

theorem DelayedRun.readCycle (h₀ : ∀ slot ∈ slots₀, slot.WaitsOnly) {src : State → Byte × State}
    (mk : Byte → BusCycle) (hsrc : ∀ g, Unseen g → ∀ v, src (g v) = ((src v).1, g (src v).2))
    (hans : ∀ v, AnswerOnly v (src v).2) (h : DelayedRun slots₀ waits₀ s u) :
    (u.readCycle src mk).1 = (s.readCycle src mk).1 ∧
      DelayedRun slots₀ waits₀ (s.readCycle src mk).2 (u.readCycle src mk).2 := by
  have hb := h.beginCycle h₀
  rw [readCycle_takes src mk hb.abandoned]
  obtain ⟨slots, shown, used, hs, hslots, hclocks, hcalm, hwaits⟩ := hb
  rw [readCycle_undisturbed hcalm, hs, hsrc _ (delayed_unseen slots shown)]
  exact ⟨rfl, slots, shown, used, rfl, hslots, hclocks, (hans u).undisturbed hcalm, (hans u).waitStates.trans hwaits⟩

theorem DelayedRun.writeCycle (h₀ : ∀ slot ∈ slots₀, slot.WaitsOnly) {dst : State → State} (c : BusCycle)
    (hdst : ∀ g, Unseen g → ∀ v, dst (g v) = g (dst v)) (hcalm : ∀ v : State, v.Undisturbed → (dst v).Undisturbed)
    (hw : ∀ v, (dst v).waitStates = v.waitStates) (h : DelayedRun slots₀ waits₀ s u) :
    DelayedRun slots₀ waits₀ (s.writeCycle dst c) (u.writeCycle dst c) := by
  have hb := h.beginCycle h₀
  rw [writeCycle_takes dst c hb.abandoned]
  obtain ⟨slots, shown, used, hs, hslots, hclocks, hu, hwaits⟩ := hb
  rw [writeCycle_undisturbed hu, hs, hdst _ (delayed_unseen slots shown)]
  exact ⟨slots, shown, used, rfl, hslots, hclocks, hcalm u hu, (hw u).trans hwaits⟩

end

theorem delayedRun_simulates (i : Instr) {slots₀ : List BusSlot} (waits₀ : List WaitState)
    (h₀ : ∀ slot ∈ slots₀, slot.WaitsOnly) : Simulates i (DelayedRun slots₀ waits₀) where
  regs := by rintro _ u ⟨slots, shown, used, rfl, -⟩; funext r; cases r <;> rfl
  sp := by rintro _ u ⟨slots, shown, used, rfl, -⟩; rfl
  pc := by rintro _ u ⟨slots, shown, used, rfl, -⟩; rfl
  flags := by rintro _ u ⟨slots, shown, used, rfl, -⟩; rfl
  platform := by rintro _ u ⟨slots, shown, used, rfl, -⟩; rfl
  setReg := fun {s u r} v _ => DelayedRun.update (f := fun w => w.setReg r v) (fun w slots shown => by cases r <;> rfl)
    (fun hu => setReg_calm hu r v) (u.setReg_waitStates r v)
  setSp := fun v _ => DelayedRun.update (f := fun w => w.setSp v) (fun _ _ _ => rfl) id rfl
  setPc := fun v _ => DelayedRun.update (f := fun w => w.setPc v) (fun _ _ _ => rfl) id rfl
  setFlags := fun {s u f} _ => DelayedRun.update (f := fun w => w.setFlags f) (fun _ _ _ => rfl) id rfl
  halt := fun _ => DelayedRun.update (f := fun w => { w with halted := true }) (fun _ _ _ => rfl) id rfl
  enable := fun b _ => DelayedRun.update (f := fun w => { w with inte := true, eiInhibit := b }) (fun _ _ _ => rfl) id rfl
  disable := fun _ => DelayedRun.update (f := fun w => { w with inte := false }) (fun _ _ _ => rfl) id rfl
  tick := fun n => DelayedRun.update (f := fun w => w.tick n)
    (fun w slots shown => by simp only [State.tick, State.delayed, Nat.add_right_comm]) id rfl
  read := fun a mk => DelayedRun.readCycle h₀ mk (fun _ hg => hg.rawRead a) (fun w => rawRead_answerOnly w a)
  input := fun p mk => DelayedRun.readCycle h₀ mk (fun _ hg => hg.rawInput p) (fun w => rawInput_answerOnly w p)
  write := fun a v c => DelayedRun.writeCycle h₀ c (fun _ hg => hg.rawWrite a v)
    (fun w => (rawWrite_writeOnly w a v).undisturbed) (fun w => rawWrite_waitStates w a v)
  emit := fun c => DelayedRun.writeCycle h₀ c (fun _ _ _ => rfl) (fun _ => id) (fun _ => rfl)

/-! ### The statements -/

/-- Settles O28: every arm of `exec` answers a next state. -/
theorem execAlwaysCompletes : Obligations.ExecAlwaysCompletes := by
  intro i s
  obtain ⟨t, ht⟩ := exec_completes i s
  have hk := exec_memoryKept ht
  exact ⟨t, ht, hk.platform, hk.pins⟩

/-- Settles O30: the frame of the processor, and what every instruction keeps outside it. -/
theorem registersFrame : Obligations.RegistersFrame := by
  intro i s t h
  have hf := exec_cpuFrame h
  have hk := exec_memoryKept h
  exact ⟨hf.regs, hf.sp, hf.pc, hf.ir, hf.halted, hk.platform, hk.pins⟩

/-- Settles O31: the flags' line of the frame. -/
theorem flagsFrame : Obligations.FlagsFrame := fun _ _ _ h => (exec_cpuFrame h).flags

/-- Settles O32: the frame for the instructions that leave INTE alone, and the two runs side by side for the rest. -/
theorem interruptEnableFlipFlop : Obligations.InterruptEnableFlipFlop := by
  refine ⟨fun s => ⟨_, rfl, rfl⟩, fun s => ⟨_, rfl, rfl⟩, fun s bytes => ?_, fun s h => ?_, fun i s t hei hdi h => ?_,
    fun s h => ?_, fun s h he => ?_, fun i s t b h => ?_⟩
  · exact congrArg Cpu.inte (acknowledge_cpu s bytes)
  · exact ⟨_, step_of_reset h, rfl⟩
  · exact (exec_cpuFrame h).inte hei hdi
  · rw [State.acceptsInterrupt, h, Bool.false_and]
  · rw [State.acceptsInterrupt, h, he]
    rfl
  · obtain ⟨u, hu⟩ := exec_completes i { s with inte := b }
    obtain ⟨c, rfl⟩ := exec_simulates (withInte_simulates i) ⟨b, rfl⟩ h hu
    exact ⟨_, hu, rfl⟩

/-- Settles O22: the run with Wait states beside the run without. -/
theorem waitsOnlyDelay : Obligations.WaitsOnlyDelay := by
  intro s i ha hslots
  obtain ⟨t, ht⟩ := exec_completes i s
  obtain ⟨u, hu⟩ := exec_completes i { s with slots := [] }
  have hrun : DelayedRun s.slots s.waitStates s { s with slots := [] } :=
    ⟨s.slots, [], [], by simp [State.delayed, waitClocks], rfl, rfl, ⟨rfl, ha⟩, rfl⟩
  obtain ⟨slots, shown, used, rfl, hused, hclocks, -, hwaits⟩ :=
    exec_simulates (delayedRun_simulates i s.waitStates hslots) hrun ht hu
  refine ⟨_, u, shown, used, ht, hu, hwaits, hused, hclocks, ?_⟩
  rw [State.delayed, hwaits]

end Sys2Proof.Machine
end

section
/-! Proofs for the statements about one step (60_exceptions.md R310): what a boundary without Reset and Hold can answer, the
invariant, and the step of a fetched and of a supplied instruction where nothing intervenes. -/

namespace Sys2Proof.Machine

/-! ### What a boundary without Reset and Hold can answer -/

/-- `u` is reached from `s` by the cycles that fetch an instruction or take it from the interrupting device. -/
structure Fetches (s u : State) : Prop where
  memory : MemoryKept s u
  slots : SlotsSpent s u

theorem Fetches.refl (s : State) : Fetches s s := ⟨.refl s, .refl s⟩

theorem Fetches.trans {s t u : State} (h : Fetches s t) (k : Fetches t u) : Fetches s u :=
  ⟨h.memory.trans k.memory, h.slots.trans k.slots⟩

/-- An update of the processor alone. -/
theorem Fetches.of_eq {s t : State} (hp : t.platform = s.platform) (hn : t.pins = s.pins) (hm : t.mem = s.mem)
    (hs : t.slots = s.slots) (ha : t.abandoned = s.abandoned) : Fetches s t :=
  ⟨.of_eq hp hn hm, .of_eq hs ha⟩

theorem fetchOpcode_fetches (s : State) : Fetches s s.fetchOpcode.2 :=
  ⟨fetchOpcode_memoryKept s, (readCycle_slotsSpent s _ fun u => (rawRead_answerOnly u s.pc).slotsSpent).trans
    (.of_eq rfl rfl)⟩

theorem fetch8_fetches (s : State) : Fetches s s.fetch8.2 :=
  ⟨fetch8_memoryKept s, (readMem_slotsSpent s s.pc).trans (.of_eq rfl rfl)⟩

theorem fetch16_fetches (s : State) : Fetches s s.fetch16.2 := (fetch8_fetches s).trans (fetch8_fetches _)

theorem suppliedByte_fetches (s : State) (bytes : List Byte) : Fetches s (s.suppliedByte bytes).2 :=
  ⟨(suppliedByte_busOnly s bytes).memoryKept, readCycle_slotsSpent s _ (supply_slotsSpent bytes)⟩

theorem acknowledge_fetches (s : State) (bytes : List Byte) : Fetches s (s.acknowledge bytes).2 :=
  have h := readCycle_slotsSpent { s with inte := false, halted := false } (fun v => .intAck s.pc v s.halted)
    (supply_slotsSpent bytes)
  ⟨acknowledge_memoryKept s bytes, h.slots, h.notReady⟩

/-- What a boundary without Reset and Hold can answer. -/
inductive BoundaryAnswer (s : State) : Outcome → Prop
  /-- a halted processor waits (60_exceptions.md R296) -/
  | waits (hh : s.halted = true) : BoundaryAnswer s (.next s)
  /-- the first cycle did not take place -/
  | cut {u : State} (hu : Fetches s u) (ha : u.abandoned ≠ none) : BoundaryAnswer s (settle u)
  /-- the instruction runs: IR is its first byte, no halt is left; after FBH it is EI -/
  | ran {u : State} {i : Instr} {op : Byte} (hu : Fetches s u) (hir : u.ir = op) (hh : u.halted = false)
      (hei : op = 0xFB → i = .ei) : BoundaryAnswer s (finish op (exec i u))
  | unassigned {op : Byte} (hop : op ∈ unassignedOpcodes) (hp : s.platform.unassigned = .refuse) :
      BoundaryAnswer s (.refused (.unassignedOpcode op))

/-- Under every policy FBH is EI. -/
theorem decodeOpcodeUnder_ei (policy : UnassignedPolicy) : decodeOpcodeUnder policy 0xFB = .one .ei := by
  cases policy <;> rfl

/-- What is selected where FBH is the first byte. -/
theorem eq_ei_of_decodeOpcodeUnder {policy : UnassignedPolicy} {op : Byte} {form : Form}
    (h : decodeOpcodeUnder policy op = form) (hop : op = 0xFB) : form = .one .ei := by
  rw [← h, hop, decodeOpcodeUnder_ei]

/-- An unassigned opcode is left without a meaning only under `refuse`. -/
theorem decodeOpcodeUnder_unassigned {policy : UnassignedPolicy} {op : Byte}
    (h : decodeOpcodeUnder policy op = .unassigned) : op ∈ unassignedOpcodes ∧ policy = .refuse := by
  cases policy with
  | refuse => exact ⟨(decodeOpcode_eq_unassigned_iff op).1 h, rfl⟩
  | alias8080A =>
    have assigned : ∀ x : Byte, aliasOpcode x ∉ unassignedOpcodes := by decide
    exact absurd ((decodeOpcode_eq_unassigned_iff _).1 h) (assigned op)

/-- The instruction runs after operand bytes are taken, with `ei_inhibit`'s opcode not among those of this format. -/
theorem BoundaryAnswer.ran_operands {s u w : State} {op : Byte} {i : Instr} {pc : Word} (hu : Fetches s u)
    (hir : u.ir = op) (hh : u.halted = false) (hw : Fetches u w) (hcpu : w.cpu = { u.cpu with pc := pc })
    (hop : op ≠ 0xFB) : BoundaryAnswer s (finish op (exec i w)) :=
  .ran (hu.trans hw) ((congrArg Cpu.ir hcpu).trans hir) ((congrArg Cpu.halted hcpu).trans hh) fun h => absurd h hop

theorem fetch16_cpu (s : State) : s.fetch16.2.cpu = { s.cpu with pc := s.pc + 1 + 1 } := by
  have hpc : s.fetch8.2.pc = s.pc + 1 := rfl
  rw [State.fetch16, fetch8_cpu, fetch8_cpu, hpc]

theorem runFetched_answer {s : State} (hh : s.halted = false) : BoundaryAnswer s (runFetched s) := by
  have hf := fetchOpcode_fetches s
  have hs1 : Fetches s { s.fetchOpcode.2 with ir := s.fetchOpcode.1 } := hf.trans (.of_eq rfl rfl rfl rfl rfl)
  have hh1 : s.fetchOpcode.2.halted = false := (congrArg Cpu.halted (fetchOpcode_cpu s)).trans hh
  unfold runFetched
  dsimp only
  split
  · rename_i k hk
    exact .cut hf (by simp [hk])
  · split <;> rename_i hform
    · exact .ran hs1 rfl hh1 fun hop => by
        cases eq_ei_of_decodeOpcodeUnder hform hop
        rfl
    · exact .ran_operands hs1 rfl hh1 (fetch8_fetches _) (fetch8_cpu _) fun hop => by
        cases eq_ei_of_decodeOpcodeUnder hform hop
    · exact .ran_operands hs1 rfl hh1 (fetch16_fetches _) (fetch16_cpu _) fun hop => by
        cases eq_ei_of_decodeOpcodeUnder hform hop
    · obtain ⟨hop, hp⟩ := decodeOpcodeUnder_unassigned hform
      exact .unassigned hop hp

theorem suppliedByte_cpu (s : State) (bytes : List Byte) : (s.suppliedByte bytes).2.cpu = { s.cpu with pc := s.pc } :=
  (suppliedByte_busOnly s bytes).cpu

theorem runSupplied_answer {s u : State} {op : Byte} (bytes : List Byte) (hu : Fetches s u) (hir : u.ir = op)
    (hh : u.halted = false) : BoundaryAnswer s (runSupplied op bytes u) := by
  unfold runSupplied
  dsimp only
  split <;> rename_i hform
  · exact .ran hu hir hh fun hop => by
      cases eq_ei_of_decodeOpcodeUnder hform hop
      rfl
  · exact .ran_operands hu hir hh (suppliedByte_fetches u bytes) (suppliedByte_cpu u bytes) fun hop => by
      cases eq_ei_of_decodeOpcodeUnder hform hop
  · have hcpu : ((u.suppliedByte bytes).2.suppliedByte bytes.tail).2.cpu = { u.cpu with pc := u.pc } :=
      (suppliedByte_cpu _ _).trans (suppliedByte_cpu u bytes)
    exact .ran_operands hu hir hh ((suppliedByte_fetches u bytes).trans (suppliedByte_fetches _ _)) hcpu fun hop => by
      cases eq_ei_of_decodeOpcodeUnder hform hop
  · obtain ⟨hop, hp⟩ := decodeOpcodeUnder_unassigned hform
    exact .unassigned hop (hu.memory.platform ▸ hp)

/-- What an accepted interrupt can answer: XTHL is refused, all else is a `BoundaryAnswer`. -/
theorem acceptInterrupt_answer (s : State) (bytes : List Byte) :
    acceptInterrupt bytes s = .refused .xthlAsInterruptInstruction ∨ BoundaryAnswer s (acceptInterrupt bytes s) := by
  have hf := acknowledge_fetches s bytes
  have hcpu := acknowledge_cpu s bytes
  unfold acceptInterrupt
  dsimp only
  split
  · rename_i k hk
    exact .inr (.cut hf (by simp [hk]))
  · split
    · exact .inl rfl
    · exact .inr (runSupplied_answer bytes.tail hf (congrArg Cpu.ir hcpu) (congrArg Cpu.halted hcpu))

theorem runProgram_answer (s : State) : BoundaryAnswer s (runProgram s) := by
  unfold runProgram
  split
  · rename_i hh
    exact .waits hh
  · rename_i hh
    exact runFetched_answer (by simpa using hh)

/-- A boundary without Reset and Hold: XTHL supplied with a request that is accepted is refused, all else is a
`BoundaryAnswer`. -/
theorem runBoundary_answer (int : Option (List Byte)) (s : State) :
    (runBoundary int s = .refused .xthlAsInterruptInstruction ∧ s.acceptsInterrupt = true ∧ int.isSome = true) ∨
      BoundaryAnswer s (runBoundary int s) := by
  unfold runBoundary
  split
  · split
    · rename_i bytes haccepts
      rcases acceptInterrupt_answer s bytes with h | h
      · exact .inl ⟨h, haccepts, rfl⟩
      · exact .inr h
    · exact .inr (runProgram_answer s)
  · exact .inr (runProgram_answer s)

/-! ### Every step keeps the invariant and the bytes outside read/write memory -/

theorem resetLine_memoryKept (s : State) : MemoryKept s s.resetLine := .of_eq rfl rfl rfl

theorem settle_memoryKept {s t : State} (h : settle s = .next t) : MemoryKept s t := by
  rcases settle_next h with ⟨-, rfl⟩ | ⟨-, rfl⟩
  · exact .refl _
  · exact resetLine_memoryKept s

theorem finish_memoryKept {op : Byte} {s t : State} (h : finish op (.next s) = .next t) : MemoryKept s t := by
  obtain ⟨u, hu, hsettle⟩ := finish_next h
  cases hu
  refine MemoryKept.trans ?_ (settle_memoryKept hsettle)
  split
  · exact .refl s
  · exact .of_eq rfl rfl rfl

theorem BoundaryAnswer.memoryKept {s t : State} (h : BoundaryAnswer s (.next t)) : MemoryKept s t := by
  generalize ho : Host.Outcome.next t = o at h
  cases h with
  | waits => cases ho; exact .refl s
  | cut hu => exact hu.memory.trans (settle_memoryKept ho.symm)
  | @ran u i op hu =>
    obtain ⟨w, hw⟩ := exec_completes i u
    rw [hw] at ho
    exact hu.memory.trans ((exec_memoryKept hw).trans (finish_memoryKept ho.symm))
  | unassigned => cases ho

/-- Whatever a step does, the parameters, the canonical form of memory and the bytes outside read/write memory stay. -/
theorem step_memoryKept {s t : State} (h : step s = .next t) : MemoryKept { s with pins := s.pins.tail } t := by
  rw [← takePins_state]
  rcases step_cases s with hs | ⟨g, hs⟩ | hs
  · cases hs.symm.trans h
    exact resetLine_memoryKept _
  · cases hs.symm.trans h
    exact (enterHold_busOnly _ g).memoryKept
  · refine (leaveHold_busOnly _).memoryKept.trans ?_
    rcases runBoundary_answer s.takePins.1.int s.takePins.2.leaveHold with ⟨hx, -⟩ | ha
    · cases (hs.symm.trans h).symm.trans hx
    · rw [hs.symm.trans h] at ha
      exact ha.memoryKept

/-- `ei_inhibit` only after EI: what the invariant says of the processor. -/
def State.InhibitedByEi (s : State) : Prop :=
  s.eiInhibit = true → s.ir = 0xFB ∧ s.inte = true ∧ s.halted = false ∧ s.platform.eiDelay = .one

/-- What a step leaves besides memory. -/
def State.Finished (s : State) : Prop := s.abandoned = none ∧ s.InhibitedByEi

theorem resetLine_finished (s : State) : s.resetLine.Finished := ⟨rfl, fun h => absurd h (by simp)⟩

theorem settle_finished {s t : State} (hs : s.InhibitedByEi) (h : settle s = .next t) : t.Finished := by
  rcases settle_next h with ⟨ha, rfl⟩ | ⟨-, rfl⟩
  · exact ⟨ha, hs⟩
  · exact resetLine_finished s

/-- EI leaves `ei_inhibit` set only under EI_DELAY = 1 (41_control.md R144; 10_state.md R41). -/
theorem exec_ei_inhibited {s t : State} (hir : s.ir = 0xFB) (hh : s.halted = false) (h : exec .ei s = .next t) :
    t.InhibitedByEi := by
  cases h
  intro hinhibit
  refine ⟨hir, rfl, hh, ?_⟩
  change eiHoldsOff s.platform.eiDelay = true at hinhibit
  change s.platform.eiDelay = .one
  cases hd : s.platform.eiDelay with
  | one => rfl
  | none => rw [hd] at hinhibit; cases hinhibit

theorem BoundaryAnswer.finished {s t : State} (hs : s.Finished) (h : BoundaryAnswer s (.next t)) : t.Finished := by
  generalize ho : Host.Outcome.next t = o at h
  cases h with
  | waits => cases ho; exact hs
  | cut hu ha =>
    rcases settle_next ho.symm with ⟨hn, -⟩ | ⟨-, rfl⟩
    · exact absurd hn ha
    · exact resetLine_finished _
  | @ran u i op hu hir hh hei =>
    obtain ⟨w, hw⟩ := exec_completes i u
    rw [hw] at ho
    obtain ⟨w', hw', hsettle⟩ := finish_next ho.symm
    cases hw'
    refine settle_finished ?_ hsettle
    split
    · rename_i hop
      cases hei hop
      exact exec_ei_inhibited (hir.trans hop) hh hw
    · exact fun hinhibit => absurd hinhibit (by simp)
  | unassigned => cases ho

theorem step_finished {s t : State} (hs : s.Finished) (h : step s = .next t) : t.Finished := by
  obtain ⟨ha, hi⟩ := hs
  rcases step_cases s with hstep | ⟨g, hstep⟩ | hstep
  · cases hstep.symm.trans h
    exact resetLine_finished _
  · cases hstep.symm.trans h
    rw [takePins_state]
    have hbus := enterHold_busOnly { s with pins := s.pins.tail } g
    obtain ⟨-, -, -, -, hinte, hhalted, hinhibit, hir⟩ := State.of_cpu_eq hbus.cpu
    refine ⟨(enterHold_abandoned _ g).trans ha, ?_⟩
    rw [State.InhibitedByEi, hinte, hhalted, hinhibit, hir, hbus.platform]
    exact hi
  · have hs' : s.takePins.2.leaveHold.Finished := by
      rw [takePins_leaveHold]
      exact ⟨ha, hi⟩
    rcases runBoundary_answer s.takePins.1.int s.takePins.2.leaveHold with ⟨hx, -⟩ | hanswer
    · cases (hstep.symm.trans h).symm.trans hx
    · rw [hstep.symm.trans h] at hanswer
      exact hanswer.finished hs'

/-- Settles O25: memory by what every step keeps, the rest by how a step ends. -/
theorem stepKeepsInv : Obligations.StepKeepsInv := by
  rintro s t ⟨hwf, hfinished⟩ h
  exact ⟨(step_memoryKept h).wf hwf, step_finished hfinished h⟩

/-- Settles O26: after reset nothing is listed in memory. -/
theorem resetHasInv : Obligations.ResetHasInv := ⟨Memory.wf_nil, rfl, fun h => absurd h (by decide)⟩

/-- Settles O27: both are among what every step keeps. -/
theorem readOnlyMemoryNeverChanges : Obligations.ReadOnlyMemoryNeverChanges := fun _ _ h =>
  ⟨(step_memoryKept h).platform, (step_memoryKept h).readOnly⟩

/-! ### Why a step can stop -/

/-- A fault comes from a missing READY. -/
theorem settle_fault {s : State} {r : Fault} (h : settle s = .fault r) :
    r = .readyWithheld ∧ s.abandoned = some .notReady := by
  unfold settle at h
  split at h
  · cases h
  · cases h
  · rename_i hn
    cases h
    exact ⟨rfl, hn⟩

theorem settle_not_refused (s : State) (r : Refusal) : settle s ≠ .refused r := by
  unfold settle
  split <;> exact fun h => by cases h

theorem finish_fault {op : Byte} {s : State} {r : Fault} (h : finish op (.next s) = .fault r) :
    r = .readyWithheld ∧ s.abandoned = some .notReady := by
  obtain ⟨hr, ha⟩ := settle_fault h
  refine ⟨hr, ?_⟩
  split at ha <;> exact ha

/-- READY missing at the end was withheld by a slot on the way. -/
theorem SlotsSpent.withheld {s t : State} (h : SlotsSpent s t) (hs : s.abandoned = none)
    (ht : t.abandoned = some .notReady) : ∃ slot ∈ s.slots, slot.waits = none := by
  rcases h.notReady ht with hs' | hslot
  · exact absurd (hs.symm.trans hs') (by simp)
  · exact hslot

theorem BoundaryAnswer.fault {s : State} {r : Fault} (hs : s.abandoned = none) (h : BoundaryAnswer s (.fault r)) :
    r = .readyWithheld ∧ ∃ slot ∈ s.slots, slot.waits = none := by
  generalize ho : Host.Outcome.fault r = o at h
  cases h with
  | waits => cases ho
  | cut hu =>
    obtain ⟨hr, hn⟩ := settle_fault ho.symm
    exact ⟨hr, hu.slots.withheld hs hn⟩
  | @ran u i op hu =>
    obtain ⟨w, hw⟩ := exec_completes i u
    rw [hw] at ho
    obtain ⟨hr, hn⟩ := finish_fault ho.symm
    exact ⟨hr, (hu.slots.trans (exec_slotsSpent hw)).withheld hs hn⟩
  | unassigned => cases ho

theorem BoundaryAnswer.refused {s : State} {r : Refusal} (h : BoundaryAnswer s (.refused r)) :
    ∃ op ∈ unassignedOpcodes, r = .unassignedOpcode op ∧ s.platform.unassigned = .refuse := by
  generalize ho : Host.Outcome.refused r = o at h
  cases h with
  | waits => cases ho
  | cut hu => exact absurd ho.symm (settle_not_refused _ r)
  | @ran u i op hu =>
    obtain ⟨w, hw⟩ := exec_completes i u
    rw [hw] at ho
    exact absurd ho.symm (settle_not_refused _ r)
  | @unassigned op hop hp =>
    cases ho
    exact ⟨op, hop, rfl, hp⟩

/-- Settles O29: only a boundary without Reset and Hold can stop the machine. -/
theorem stepStopsOnlyFor : Obligations.StepStopsOnlyFor := by
  intro s hs
  have hanswer := runBoundary_answer s.takePins.1.int s.takePins.2.leaveHold
  have hs' : s.takePins.2.leaveHold.abandoned = none := by rw [takePins_leaveHold]; exact hs
  refine ⟨fun r h => ?_, fun r h => ?_⟩
  · rcases step_cases s with hstep | ⟨g, hstep⟩ | hstep
    · cases hstep.symm.trans h
    · cases hstep.symm.trans h
    · rw [hstep.symm.trans h] at hanswer
      rcases hanswer with ⟨hx, -⟩ | ha
      · cases hx
      · have hfault := ha.fault hs'
        rw [takePins_leaveHold] at hfault
        exact hfault
  · rcases step_cases s with hstep | ⟨g, hstep⟩ | hstep
    · cases hstep.symm.trans h
    · cases hstep.symm.trans h
    · rw [hstep.symm.trans h, takePins_leaveHold] at hanswer
      rcases hanswer with ⟨hx, haccepts, hint⟩ | ha
      · cases hx
        exact .inr ⟨rfl, haccepts, hint⟩
      · exact .inl ha.refused

end Sys2Proof.Machine
end

section
/-! Proofs for the statements about one step where nothing intervenes, about Hold and Reset at and inside an instruction, and
about what the bus shows. -/

namespace Sys2Proof.Machine

/-! ### The stack in read/write memory -/

theorem storedAt_same {s : State} {a : Word} (v old : Byte) (h : s.kindAt a = .ram) : s.storedAt a v a old = v :=
  if_pos ⟨rfl, h⟩

theorem storedAt_other (s : State) {a x : Word} (v old : Byte) (h : x ≠ a) : s.storedAt a v x old = old :=
  if_neg fun hx => h hx.1

/-- A push where read/write memory lies below the stack pointer. -/
theorem push16_ram {s : State} (v : Word) (hu : s.Undisturbed) (hw : s.mem.wf) (h1 : s.kindAt (s.sp - 1) = .ram)
    (h2 : s.kindAt (s.sp - 2) = .ram) :
    (s.push16 v).peek (s.sp - 1) = hiByte v ∧ (s.push16 v).peek (s.sp - 2) = loByte v ∧
      ∀ x, x ≠ s.sp - 1 → x ≠ s.sp - 2 → (s.push16 v).peek x = s.peek x := by
  obtain ⟨hpeek, -, -⟩ := push16_spec s v hu hw
  refine ⟨?_, ?_, fun x hx1 hx2 => ?_⟩
  · rw [hpeek, storedAt_other s _ _ (sub_one_ne_sub_two s.sp), storedAt_same _ _ h1]
  · rw [hpeek, storedAt_same _ _ h2]
  · rw [hpeek, storedAt_other s _ _ hx2, storedAt_other s _ _ hx1]

/-- A pop from memory gives its two bytes. -/
theorem pop16_of_memory {s : State} (hu : s.Undisturbed) (h1 : s.HoldsMemory s.sp) (h2 : s.HoldsMemory (s.sp + 1)) :
    s.pop16.1 = mkWord (s.peek (s.sp + 1)) (s.peek s.sp) := by
  obtain ⟨hlo, hhi⟩ := rawRead_two_of_memory h1 h2
  rw [(pop16_spec s hu).1, hlo, hhi]

theorem callTo_cpu (s : State) (target : Word) :
    (s.callTo target).cpu = { s.cpu with sp := s.sp - 2, pc := target } := by
  rw [State.callTo, State.setPc_cpu, push16_cpu]

theorem returnTo_cpu (s : State) : s.returnTo.cpu = { s.cpu with sp := s.sp + 2, pc := s.pop16.1 } := by
  rw [State.returnTo, State.setPc_cpu, pop16_cpu]

/-! ### The bytes at pc and what they decode to -/

theorem codeAt_two (s : State) (a : Word) : s.codeAt a 2 = [s.peek a, s.peek (a + 1)] := by
  simp [State.codeAt, List.range_succ]

theorem codeAt_three (s : State) (a : Word) : s.codeAt a 3 = s.peek a :: s.codeAt (a + 1) 2 := by
  simp [State.codeAt, List.range_succ, BitVec.add_assoc]

/-- The first byte of what decodes is assigned. -/
theorem assigned_of_decode {op : Byte} {bytes rest : List Byte} {i : Instr} (h : decode (op :: bytes) = .ok (i, rest)) :
    op ∉ unassignedOpcodes := fun hop => by
  rw [decode_unassigned ((decodeOpcode_eq_unassigned_iff op).2 hop)] at h
  cases h

/-- The policy matters for the unassigned opcodes only. -/
theorem decodeOpcodeUnder_assigned (policy : UnassignedPolicy) {op : Byte} (h : op ∉ unassignedOpcodes) :
    decodeOpcodeUnder policy op = decodeOpcode op := by
  cases policy with
  | refuse => rfl
  | alias8080A => rw [decodeOpcodeUnder, aliasOpcode_of_assigned h]

/-- FBH is EI and nothing else is. -/
theorem eq_ei_iff_of_decode {op : Byte} {bytes rest : List Byte} {i : Instr}
    (h : decode (op :: bytes) = .ok (i, rest)) : i = .ei ↔ op = 0xFB := by
  constructor
  · rintro rfl
    exact (List.cons.inj (encodeOfDecode _ _ _ h)).1.symm
  · rintro rfl
    have hei := decode_one (op := 0xFB) (i := .ei) rfl bytes
    cases h.symm.trans hei
    rfl

/-- E3H is XTHL. -/
theorem ne_xthl_of_decode {op : Byte} {bytes rest : List Byte} {i : Instr} (h : decode (op :: bytes) = .ok (i, rest))
    (hi : i ≠ .xthl) : op ≠ 0xE3 := by
  rintro rfl
  have hx := decode_one (op := 0xE3) (i := .xthl) rfl bytes
  cases h.symm.trans hx
  exact hi rfl

/-! ### An instruction that nothing disturbs -/

/-- An undisturbed instruction completes, and the step ends in its state with `ei_inhibit` cleared but after FBH. -/
theorem finish_exec_undisturbed (op : Byte) (i : Instr) {s : State} (hu : s.Undisturbed) :
    ∃ t, exec i s = .next t ∧ finish op (exec i s) = .next (if op = 0xFB then t else { t with eiInhibit := false }) := by
  obtain ⟨t, ht⟩ := exec_completes i s
  obtain ⟨-, ha⟩ := exec_undisturbed hu ht
  exact ⟨t, ht, by rw [ht, finish_of_none ha]⟩

/-- An undisturbed step from memory, where the byte at pc selects what `op` selects. -/
theorem step_runs {s : State} {int : Option (List Byte)} {op : Byte} {i : Instr} {rest : List Byte} (hl : s.LinesAre int)
    (ha : int = none ∨ s.acceptsInterrupt = false) (hh : s.halted = false) (hu : s.Undisturbed)
    (hop : decodeOpcodeUnder s.platform.unassigned (s.peek s.pc) = decodeOpcode op)
    (hd : decode (op :: s.codeAt (s.pc + 1) 2) = .ok (i, rest))
    (hm : ∀ k < (encode i).length, s.HoldsMemory (s.pc + BitVec.ofNat 16 k)) :
    ∃ t, exec i (s.fetched (encode i).length) = .next t ∧
      step s = .next (if s.peek s.pc = 0xFB then t else { t with eiInhibit := false }) := by
  have agrees := decodeOpcode_agreesWith op
  rw [codeAt_two, BitVec.add_assoc] at hd
  rcases decode_ok hd with ⟨op', hform, hbytes⟩ | ⟨op', f, data, hform, rfl, hbytes⟩ |
      ⟨op', f, lo, hi, hform, rfl, hbytes⟩ <;>
    cases hbytes <;> rw [hform] at agrees <;> obtain ⟨hencode, -, -⟩ := agrees
  · rw [hencode] at hm ⊢
    have hm0 : s.HoldsMemory s.pc := by simpa using hm 0 (by simp)
    rw [step_fetches hl ha hh hu hm0, hop, hform]
    exact finish_exec_undisturbed _ i (fetched_undisturbed 1 hu)
  · rw [hencode] at hm ⊢
    have hm0 : s.HoldsMemory s.pc := by simpa using hm 0 (by simp)
    have hm1 : s.HoldsMemory (s.pc + 1) := hm 1 (by simp)
    rw [step_fetches hl ha hh hu hm0, hop, hform]
    dsimp only
    rw [fetched_fetch8 hu hm1]
    exact finish_exec_undisturbed _ _ (fetched_undisturbed 2 hu)
  · rw [hencode] at hm ⊢
    have hm0 : s.HoldsMemory s.pc := by simpa using hm 0 (by simp [encode3])
    have hm1 : s.HoldsMemory (s.pc + 1) := hm 1 (by simp [encode3])
    have hm2 : s.HoldsMemory (s.pc + 2) := hm 2 (by simp [encode3])
    rw [step_fetches hl ha hh hu hm0, hop, hform]
    dsimp only
    rw [fetched_fetch16 hu hm1 hm2]
    exact finish_exec_undisturbed _ _ (fetched_undisturbed 3 hu)

/-! ### An accepted interrupt -/

theorem step_accepts {s : State} {bytes : List Byte} (hl : s.LinesAre (some bytes)) (ha : s.acceptsInterrupt = true) :
    step s = acceptInterrupt bytes s.takePins.2.leaveHold := by
  have ha' : s.takePins.2.leaveHold.acceptsInterrupt = true := by rw [takePins_leaveHold]; exact ha
  rw [step_of_linesAre hl, runBoundary]
  exact if_pos ha'

/-- An undisturbed acknowledge: XTHL is refused, all else runs. -/
theorem step_supplied {s : State} {op : Byte} {rest : List Byte} (hl : s.LinesAre (some (op :: rest)))
    (ha : s.acceptsInterrupt = true) (hu : s.Undisturbed) :
    step s =
      if op = 0xE3 then .refused .xthlAsInterruptInstruction else runSupplied op rest (s.acknowledged op [op]) := by
  have hn : (s.acknowledged op [op]).abandoned = none := (acknowledged_undisturbed op [op] hu).2
  rw [step_accepts hl ha, acceptInterrupt, acknowledge_undisturbed op rest hu]
  simp only [hn, List.tail_cons]

/-- The supplied bytes of an instruction, undisturbed, run it (60_exceptions.md R290, R291). -/
theorem runSupplied_undisturbed {s : State} {op : Byte} {operands : List Byte} {i : Instr}
    (hd : decode (op :: operands) = .ok (i, [])) (hu : s.Undisturbed) :
    runSupplied op operands (s.acknowledged op [op]) = finish op (exec i (s.acknowledged op (op :: operands))) := by
  rw [runSupplied, decodeOpcodeUnder_assigned _ (assigned_of_decode hd)]
  rcases decode_ok hd with ⟨op', hform, hbytes⟩ | ⟨op', f, data, hform, rfl, hbytes⟩ |
      ⟨op', f, lo, hi, hform, rfl, hbytes⟩ <;>
    cases hbytes <;> rw [hform]
  · dsimp only
    rw [suppliedByte_undisturbed op data [] [] hu]
    rfl
  · dsimp only
    rw [suppliedByte_undisturbed op lo [] [hi] hu]
    dsimp only [List.tail_cons, List.nil_append]
    rw [suppliedByte_undisturbed op hi [lo] [] hu]
    rfl

/-! ### Hold (60_exceptions.md R304; 20_memory.md R71) -/

/-- The holder leaves HLDA alone. -/
theorem dmaAccess_hlda (s : State) (x : DmaAccess) : (s.dmaAccess x).hlda = s.hlda := by
  cases x with
  | read a => exact rawRead_hlda s a
  | write a v => exact rawWrite_hlda s a v
  | input p => exact (rawInput_answerOnly s p).hlda
  | output p v => rfl

theorem dmaAccesses_hlda (accesses : List DmaAccess) :
    ∀ s : State, (accesses.foldl State.dmaAccess s).hlda = s.hlda := by
  induction accesses with
  | nil => exact fun s => rfl
  | cons x rest ih => exact fun s => (ih (s.dmaAccess x)).trans (dmaAccess_hlda s x)

@[simp] theorem enterHold_hlda (s : State) (g : Hold) : (s.enterHold g).hlda = true :=
  dmaAccesses_hlda g.accesses { s with hlda := true }

/-- A write leaves every other address. -/
theorem rawWrite_peek_other (s : State) {a x : Word} (v : Byte) (h : x ≠ a) : (s.rawWrite a v).peek x = s.peek x := by
  unfold State.rawWrite
  split
  · exact Memory.read_write_other s.mem v h
  all_goals rfl

theorem dmaAccess_peek_other (s : State) {x : Word} (access : DmaAccess) (h : ∀ v, DmaAccess.write x v ≠ access) :
    (s.dmaAccess access).peek x = s.peek x := by
  cases access with
  | read a => exact rawRead_peek s a x
  | write a v =>
    refine rawWrite_peek_other s v ?_
    rintro rfl
    exact h v rfl
  | input p => exact (rawInput_answerOnly s p).peek x
  | output p v => rfl

theorem dmaAccesses_peek_other {x : Word} (accesses : List DmaAccess) :
    ∀ s : State, (∀ v, DmaAccess.write x v ∉ accesses) → (accesses.foldl State.dmaAccess s).peek x = s.peek x := by
  induction accesses with
  | nil => exact fun s _ => rfl
  | cons access rest ih =>
    intro s h
    have hrest : ∀ v, DmaAccess.write x v ∉ rest := fun v hv => h v (List.mem_cons_of_mem _ hv)
    have hfirst : ∀ v, DmaAccess.write x v ≠ access := fun v hv => h v (hv ▸ List.mem_cons_self)
    exact (ih _ hrest).trans (dmaAccess_peek_other s access hfirst)

theorem enterHold_peek_other (s : State) (g : Hold) {x : Word} (h : ∀ v, DmaAccess.write x v ∉ g.accesses) :
    (s.enterHold g).peek x = s.peek x :=
  dmaAccesses_peek_other g.accesses { s with hlda := true } h

/-- A boundary that brings Wait states only. -/
theorem beginCycle_wait {s : State} {n : Nat} {rest : List BusSlot} (ha : s.abandoned = none)
    (hs : s.slots = { reset := false, hold := none, waits := some n } :: rest) :
    ∃ shown, s.beginCycle = s.delayed rest shown := by
  obtain ⟨shown, -, h⟩ := slotWait_shows { s with slots := rest } n
  exact ⟨shown, by rw [beginCycle_slot ha hs rfl]; exact h⟩

/-! ### The statements about a step -/

/-- Settles O8: the step of the bytes at pc, whose opcode is assigned under either policy. -/
theorem stepRunsDecodedInstruction : Obligations.StepRunsDecodedInstruction := by
  intro s int i rest hl ha hh hu hd hm
  rw [codeAt_three] at hd
  have hop := decodeOpcodeUnder_assigned s.platform.unassigned (assigned_of_decode hd)
  simp only [eq_ei_iff_of_decode hd]
  exact step_runs hl ha hh hu hop hd hm

/-- Settles O9: the fetch gives the opcode, which selects nothing. -/
theorem unassignedOpcodeStops : Obligations.UnassignedOpcodeStops := by
  intro s int hl ha hh hu hm hp hop
  rw [step_fetches hl ha hh hu hm, hp, decodeOpcodeUnder, (decodeOpcode_eq_unassigned_iff _).2 hop]

/-- The opcode an unassigned one duplicates, opcode by opcode (93_implementation_defined.md U1). -/
theorem aliasOpcode_of_unassigned {op : Byte} (h : op ∈ unassignedOpcodes) :
    aliasOpcode op =
      if op = 0xCB then 0xC3 else if op = 0xD9 then 0xC9
      else if op = 0xDD ∨ op = 0xED ∨ op = 0xFD then 0xCD else 0x00 := by
  revert op
  decide

/-- Settles O10: the step of the bytes at pc with the duplicated opcode in front; no unassigned opcode is FBH. -/
theorem unassignedOpcodeAlias : Obligations.UnassignedOpcodeAlias := by
  intro s int i rest hl ha hh hu hp hop hd hm
  rw [← aliasOpcode_of_unassigned hop] at hd
  have hne : s.peek s.pc ≠ 0xFB := fun h => absurd (h ▸ hop) (by decide)
  obtain ⟨t, ht, hstep⟩ := step_runs hl ha hh hu (by rw [hp]; rfl) hd hm
  rw [if_neg hne] at hstep
  exact ⟨t, ht, hstep⟩

/-- Settles O11: the acknowledge, the operand bytes, the instruction. -/
theorem acceptedInterruptRunsSupplied : Obligations.AcceptedInterruptRunsSupplied := by
  intro s i op operands hencode hi hl ha hu
  have hd : decode (op :: operands) = .ok (i, []) := by
    have h := decodeOfEncode i []
    rwa [hencode, List.append_nil] at h
  rw [step_supplied hl ha hu, if_neg (ne_xthl_of_decode hd hi), runSupplied_undisturbed hd hu]
  simp only [eq_ei_iff_of_decode hd]
  exact finish_exec_undisturbed op i (acknowledged_undisturbed op _ hu)

/-- Settles O12: either way the program goes on from the same state. -/
theorem ignoredInterruptHasNoEffect : Obligations.IgnoredInterruptHasNoEffect := by
  intro s bytes hl hignored
  have ha : s.acceptsInterrupt = false := by
    rcases hignored with h | h <;> simp [State.acceptsInterrupt, h]
  have hquiet : State.LinesAre { s with pins := Pins.quiet :: s.pins.tail } none := rfl
  rw [step_of_notAccepted hl (.inr ha), step_of_notAccepted hquiet (.inl rfl), takePins_leaveHold, takePins_leaveHold]
  rfl

theorem acknowledged_cpu (s : State) (op : Byte) (bytes : List Byte) :
    (s.acknowledged op bytes).cpu = { s.cpu with inte := false, halted := false, ir := op } := by
  unfold State.acknowledged
  rw [takePins_state]
  refine Cpu.eq_of (fun r => ?_) rfl
  cases r <;> rfl

theorem acknowledged_mem (s : State) (op : Byte) (bytes : List Byte) : (s.acknowledged op bytes).mem = s.mem := by
  unfold State.acknowledged
  rw [takePins_state]

theorem acknowledged_kindAt (s : State) (op : Byte) (bytes : List Byte) (x : Word) :
    (s.acknowledged op bytes).kindAt x = s.kindAt x := by
  unfold State.acknowledged
  rw [takePins_state]
  rfl

/-- The end of an instruction other than EI touches `ei_inhibit` alone. -/
theorem clearInhibit_cpu (s : State) : State.cpu { s with eiInhibit := false } = { s.cpu with eiInhibit := false } := by
  refine Cpu.eq_of (fun r => ?_) rfl
  cases r <;> rfl

/-- The RST of an interrupt, from the acknowledged state `k`: what lies in the processor and below the stack pointer
when the step ends. -/
theorem supplied_rst {k t : State} {vvv : BitVec 3} (h : exec (.rst vvv) k = .next t) (hu : k.Undisturbed)
    (hwf : k.mem.wf) (hram1 : k.kindAt (k.sp - 1) = .ram) (hram2 : k.kindAt (k.sp - 2) = .ram) :
    t.cpu = { k.cpu with pc := BitVec.ofNat 16 (8 * vvv.toNat), sp := k.sp - 2 } ∧
      t.peek (k.sp - 1) = hiByte k.pc ∧ t.peek (k.sp - 2) = loByte k.pc ∧
      ∀ x, x ≠ k.sp - 1 → x ≠ k.sp - 2 → t.peek x = k.peek x := by
  cases h
  refine ⟨?_, push16_ram k.pc hu hwf hram1 hram2⟩
  rw [State.tick_cpu, callTo_cpu, rst_target]

/-- RET where the two bytes of `pc` lie on the stack in memory. -/
theorem exec_ret_cpu {t : State} (pc : Word) (hu : t.Undisturbed) (h1 : t.HoldsMemory t.sp)
    (h2 : t.HoldsMemory (t.sp + 1)) (hlo : t.peek t.sp = loByte pc) (hhi : t.peek (t.sp + 1) = hiByte pc) :
    ∃ u, exec .ret t = .next u ∧ u.cpu = { t.cpu with sp := t.sp + 2, pc := pc } := by
  refine ⟨_, rfl, ?_⟩
  rw [State.tick_cpu, returnTo_cpu, pop16_of_memory hu h1 h2, hlo, hhi, mkWord_split]

/-- Settles O13: the call of the acknowledged state, then the return from the two bytes it pushed. -/
theorem interruptThenReturn : Obligations.InterruptThenReturn := by
  intro s vvv op rest hencode hl ha hu hwf hram1 hram2
  obtain ⟨t, ht, hstep⟩ := acceptedInterruptRunsSupplied s (.rst vvv) op rest hencode (by simp) hl ha hu
  have hkcpu := acknowledged_cpu s op (op :: rest)
  have hkmem := acknowledged_mem s op (op :: rest)
  have hkind := acknowledged_kindAt s op (op :: rest)
  have hku := acknowledged_undisturbed op (op :: rest) hu
  have hksp : (s.acknowledged op (op :: rest)).sp = s.sp := congrArg Cpu.sp hkcpu
  have hkpc : (s.acknowledged op (op :: rest)).pc = s.pc := congrArg Cpu.pc hkcpu
  have hrst := supplied_rst ht hku (hkmem ▸ hwf) (by rw [hksp, hkind, hram1]) (by rw [hksp, hkind, hram2])
  rw [hksp, hkpc, hkcpu] at hrst
  obtain ⟨htcpu, hhi, hlo, hother⟩ := hrst
  have htu : t.Undisturbed := exec_undisturbed hku ht
  have htsp : t.sp = s.sp - 2 := congrArg Cpu.sp htcpu
  have htkind : ∀ x, t.kindAt x = s.kindAt x := fun x =>
    (kindAt_congr (exec_memoryKept ht).platform x).trans (hkind x)
  have hnext : t.sp + 1 = s.sp - 1 := by rw [htsp]; bv_omega
  have hback : t.sp + 2 = s.sp := by rw [htsp]; bv_omega
  obtain ⟨u, hret, hucpu⟩ := exec_ret_cpu (t := { t with eiInhibit := false }) s.pc htu
    (.inl (by change t.kindAt t.sp = .ram; rw [htkind, htsp, hram2]))
    (.inl (by change t.kindAt (t.sp + 1) = .ram; rw [htkind, hnext, hram1]))
    (by change t.peek t.sp = _; rw [htsp, hlo]) (by change t.peek (t.sp + 1) = _; rw [hnext, hhi])
  refine ⟨{ t with eiInhibit := false }, u, ?_, ?_, hhi, hlo, fun x hx1 hx2 => ?_, hret, ?_⟩
  · rw [hstep, if_neg (by simp)]
  · rw [clearInhibit_cpu, htcpu]
  · refine (hother x hx1 hx2).trans ?_
    rw [State.peek, State.peek, hkmem]
  · rw [hucpu, clearInhibit_cpu, htcpu]
    exact congrArg (fun sp => ({ s.cpu with sp := sp, inte := false, halted := false, eiInhibit := false, ir := op } : Cpu))
      hback

/-- Settles O14: the refusal comes before anything runs. -/
theorem xthlSuppliedRefused : Obligations.XthlSuppliedRefused := by
  intro s rest hl ha hu
  rw [step_supplied hl ha hu, if_pos rfl]

/-- Settles O15: the program does not go on while halted. -/
theorem haltedWaits : Obligations.HaltedWaits := by
  intro s int hh hl ha
  rw [step_of_notAccepted hl ha, takePins_leaveHold]
  exact if_pos hh

/-- Settles O16: RESET is looked at first. -/
theorem resetStep : Obligations.ResetStep := by
  intro s h
  refine ⟨_, step_of_reset h, rfl, rfl, rfl, rfl, rfl, rfl, rfl, ?_⟩
  rw [takePins_state]
  exact ⟨fun _ => rfl, rfl, rfl, rfl⟩

/-- An instruction cut short by RESET is followed by it (70_reset_and_hazards.md R322). -/
theorem settle_of_reset {s : State} (h : s.abandoned = some .reset) : settle s = .next s.resetLine := by
  simp only [settle, h]

/-- Settles O17: the first write takes place, the second does not. -/
theorem resetInsidePush : Obligations.ResetInsidePush := by
  intro s n slot rest ha hslots hreset hwf hram
  obtain ⟨shown, hfirst⟩ := beginCycle_wait ha hslots
  have hfirsta : s.beginCycle.abandoned = none := by rw [hfirst]; exact ha
  set w := (s.delayed (slot :: rest) shown).rawWrite (s.sp - 1) (hiByte s.bc) with hw
  have hwrite : s.writeStack (s.sp - 1) (hiByte s.bc) = w.logCycle (.stackWrite (s.sp - 1) (hiByte s.bc)) := by
    rw [State.writeStack, writeCycle_takes _ _ hfirsta, hfirst]
  have hcut := beginCycle_reset (s := w.logCycle (.stackWrite (s.sp - 1) (hiByte s.bc)))
    ((rawWrite_abandoned _ _ _).trans ha) (rawWrite_slots _ _ _) hreset
  have hpush : (s.push16 s.bc).mem = w.mem ∧ (s.push16 s.bc).abandoned = some .reset := by
    rw [State.push16, hwrite, State.writeStack, writeCycle_cut (k := .reset) _ _ (by rw [hcut]), hcut]
    exact ⟨rfl, rfl⟩
  have hpeek : ∀ x, (s.push16 s.bc).peek x = s.storedAt (s.sp - 1) s.b x (s.peek x) := fun x => by
    have h := rawWrite_peek (s := s.delayed (slot :: rest) shown) (s.sp - 1) (hiByte s.bc) x hwf
    rw [State.bc, hiByte_mkWord] at h
    rw [State.peek, hpush.1, hw, State.bc, hiByte_mkWord]
    exact h
  refine ⟨_, rfl, hpush.2, ?_, fun x hx => ?_, _, settle_of_reset hpush.2, rfl, rfl⟩
  · rw [State.tick_peek, hpeek, storedAt_same _ _ hram]
  · rw [State.tick_peek, hpeek, storedAt_other s _ _ hx]

/-- Settles O18: `State.reset` is these values. -/
theorem resetStateValues : Obligations.ResetStateValues := ⟨rfl, rfl, rfl, rfl, rfl, rfl⟩

/-- Settles O19: the boundary after the Hold sees its own level of the line only. -/
theorem holdPostponesInterrupts : Obligations.HoldPostponesInterrupts := by
  intro s g int next rest hpins
  have htake : s.takePins =
      ({ reset := false, hold := some g, int := int },
        { s with pins := { reset := false, hold := none, int := next } :: rest }) := by
    rw [State.takePins, hpins]
  have hstep := step_of_hold (s := s) (g := g) (by rw [htake]) (by rw [htake])
  rw [htake] at hstep
  set t := State.enterHold { s with pins := { reset := false, hold := none, int := next } :: rest } g with ht
  have hcpu : t.cpu = s.cpu := by
    rw [ht, (enterHold_busOnly _ g).cpu]
    refine Cpu.eq_of (fun r => ?_) rfl
    cases r <;> rfl
  have htpins : t.pins = { reset := false, hold := none, int := next } :: rest := (enterHold_busOnly _ g).pins
  have haccepts : t.acceptsInterrupt = s.acceptsInterrupt :=
    congrArg₂ (fun x y => x && !y) (congrArg Cpu.inte hcpu) (congrArg Cpu.eiInhibit hcpu)
  have hl : t.LinesAre next := by rw [State.LinesAre, State.takePins, htpins]
  refine ⟨t, hstep, enterHold_hlda _ g, hcpu, haccepts, hl, ?_⟩
  rw [step_of_linesAre hl, takePins_leaveHold, htpins]
  cases next with
  | none => rfl
  | some bytes =>
    have hiff : t.acceptsInterrupt = true ↔ s.inte = true ∧ s.eiInhibit = false := by
      rw [haccepts, State.acceptsInterrupt, Bool.and_eq_true, Bool.not_eq_true']
    exact if_congr hiff rfl rfl

/-- Settles O20: the Hold at the boundary is the whole step. -/
theorem holdLeavesProcessor : Obligations.HoldLeavesProcessor := by
  intro s g hr hh
  have hstep := step_of_hold hr hh
  rw [takePins_state] at hstep
  have hb := enterHold_busOnly { s with pins := s.pins.tail } g
  refine ⟨_, hstep, hb.cpu.trans ?_, enterHold_hlda _ g, hb.platform, hb.pins, enterHold_slots _ g,
    enterHold_abandoned _ g, fun x hx => enterHold_peek_other _ g hx⟩
  refine Cpu.eq_of (fun r => ?_) rfl
  cases r <;> rfl

/-- A write before which a holder of the bus writes to the same address: the processor's byte stays. -/
theorem writeMem_after_hold {s : State} {a : Word} {v : Byte} {clocks n : Nat} {rest : List BusSlot} (w : Byte)
    (ha : s.abandoned = none) (hwf : s.mem.wf) (hram : s.kindAt a = .ram)
    (hs : s.slots =
      { reset := false, hold := some { clocks := clocks, accesses := [.write a v] }, waits := some n } :: rest) :
    (s.writeMem a w).peek a = w ∧ (s.writeMem a w).bus = s.bus ++ [.dma (.write a v) v, .memWrite a w] := by
  have hb := beginCycle_busOnly s
  have hbegin := beginCycle_slot ha hs rfl
  obtain ⟨ws, hwait⟩ := slotWait_ends
    (State.slotHold { s with slots := rest } (some { clocks := clocks, accesses := [.write a v] })) n
  rw [hwait] at hbegin
  have habandoned : s.beginCycle.abandoned = none := by
    rw [hbegin]
    exact (slotHold_abandoned _ _).trans ha
  have hbus : s.beginCycle.bus = s.bus ++ [.dma (.write a v) v] := by
    rw [hbegin]
    exact congrArg (· ++ [BusCycle.dma (.write a v) v]) (rawWrite_bus { s with slots := rest, hlda := true } a v)
  rw [State.writeMem, writeCycle_takes _ _ habandoned]
  refine ⟨?_, ?_⟩
  · rw [State.logCycle_peek, rawWrite_peek a w a (hb.wf hwf), storedAt_same _ _ ((hb.kindAt a).trans hram)]
  · rw [State.logCycle_bus, rawWrite_bus, hbus, List.append_assoc]
    rfl

/-- Settles O21: the read, the holder's write, the write, each at its own boundary. -/
theorem holdSplitsIncrement : Obligations.HoldSplitsIncrement := by
  intro s n m clocks v ha hram hwf hslots
  obtain ⟨shown, hbegin⟩ := beginCycle_wait ha hslots
  have habandoned : s.beginCycle.abandoned = none := by rw [hbegin]; exact ha
  have hread := readCycle_takes (fun t => t.rawRead s.hl) (.memRead s.hl) habandoned
  rw [hbegin] at hread
  rw [rawRead_of_memory (s := s.delayed _ shown) (.inl hram)] at hread
  obtain ⟨hpeek, hbus⟩ := writeMem_after_hold (s := (s.readMem s.hl).2) (incFlags s.flags (s.readMem s.hl).1).1
    (by rw [State.readMem, hread]; exact ha) (by rw [State.readMem, hread]; exact hwf)
    (by rw [State.readMem, hread]; exact hram) (by rw [State.readMem, hread]; rfl)
  have hvalue : (s.readMem s.hl).1 = s.peek s.hl := by rw [State.readMem, hread]; rfl
  have hbus₁ : (s.readMem s.hl).2.bus = s.bus ++ [.memRead s.hl (s.peek s.hl)] := by
    rw [State.readMem, hread]
    rfl
  rw [hvalue, incFlags_value] at hpeek hbus
  rw [hbus₁, List.append_assoc] at hbus
  refine ⟨_, rfl, ?_, ?_⟩
  · rw [State.tick_peek, State.setFlags_peek, hvalue, incFlags_value, hpeek]
  · rw [State.tick_bus, State.setFlags_bus, hvalue, incFlags_value, hbus]
    rfl

/-- Settles O23: the fetch cycle is cut short before anything answers. -/
theorem readyWithheldIsStuck : Obligations.ReadyWithheldIsStuck := by
  intro s slot rest hl hh ha hslots hreset hwaits
  rw [step_of_notAccepted hl (.inl rfl), takePins_leaveHold]
  have hbegin := beginCycle_slot (s := { s with pins := s.pins.tail, hlda := false }) ha hslots hreset
  have hstuck : (State.beginCycle { s with pins := s.pins.tail, hlda := false }).abandoned = some .notReady := by
    rw [hbegin, hwaits]
    rfl
  have hfetch : (State.fetchOpcode { s with pins := s.pins.tail, hlda := false }).2.abandoned = some .notReady := by
    rw [State.fetchOpcode, readCycle_cut _ _ hstuck]
    exact hstuck
  rw [runProgram, if_neg (by simp [hh]), runFetched]
  simp only [hfetch, settle]

/-- A status byte from its eight bits MEMR INP M1 OUT HLTA STK WO INTA (20_memory.md R61). -/
theorem status_of_bits {c : BusCycle} (memr inp m1 out hlta stk wo inta : Bool) {v : Byte}
    (hc : c.status = some (statusByte memr inp m1 out hlta stk wo inta))
    (hv : statusByte memr inp m1 out hlta stk wo inta = v) : c.status = some v :=
  hc.trans (congrArg some hv)

/-- Settles O24: the table of the status bytes (20_memory.md R63) and of the pins' levels. -/
theorem statusBytes : Obligations.StatusBytes := by
  intro a v p
  refine ⟨status_of_bits true false true false false false true false rfl (by decide),
    status_of_bits true false false false false false true false rfl (by decide),
    status_of_bits false false false false false false false false rfl (by decide),
    status_of_bits true false false false false true true false rfl (by decide),
    status_of_bits false false false false false true false false rfl (by decide),
    status_of_bits false true false false false false true false rfl (by decide),
    status_of_bits false false false true false false false false rfl (by decide),
    status_of_bits false false true false false false true true rfl (by decide),
    status_of_bits true false false false true false true false rfl (by decide),
    status_of_bits false false true false true false true true rfl (by decide),
    rfl, rfl, fun c hc => ?_, fun c hc => ?_, rfl, rfl, fun x => ⟨rfl, rfl, rfl, rfl⟩⟩
  · fin_cases hc <;> exact ⟨rfl, rfl, rfl⟩
  · fin_cases hc <;> exact ⟨rfl, rfl, rfl⟩

end Sys2Proof.Machine
end

section
/-! Proofs for the data transfer, control, branch and stack statements: what the reads and writes of one instruction leave,
said once per kind of cycle, then each instruction by its form. -/

namespace Sys2Proof.Machine

/-! ### An update of the processor, then the clock -/

/-- A state that is `u` with the clock cycles of its instruction counted. -/
theorem became_tick {s u : State} {k : Cpu} {o : Outside} (n : Nat) (hk : u.cpu = k) (ho : u.outside = o)
    (hp : u.platform = s.platform) (hn : u.pins = s.pins) (hc : u.clocks = s.clocks) : s.Became (u.tick n) k o n :=
  ⟨(u.tick_cpu n).trans hk, ho, hp, hn, congrArg (· + n) hc⟩

/-! ### Reads, undisturbed -/

/-- `t` is `s` after read cycles that nothing disturbs: outside the processor it is `o`, memory is as before. -/
structure ReadTo (s t : State) (o : Outside) : Prop where
  cpu : t.cpu = s.cpu
  outside : t.outside = o
  mem : t.mem = s.mem
  platform : t.platform = s.platform
  pins : t.pins = s.pins
  clocks : t.clocks = s.clocks

namespace ReadTo

variable {s t : State} {o : Outside}

theorem getReg (h : ReadTo s t o) : t.getReg = s.getReg := funext (State.of_cpu_eq h.cpu).1

theorem peek (h : ReadTo s t o) (x : Word) : t.peek x = s.peek x := by rw [State.peek, State.peek, h.mem]

/-- One register loaded. -/
theorem setReg (h : ReadTo s t o) (r : Reg) (v : Byte) (n : Nat) :
    s.Became ((t.setReg r v).tick n) { s.cpu with regs := Function.update s.getReg r v } o n :=
  became_tick n (by rw [State.setReg_cpu, h.cpu, h.getReg]) ((t.setReg_outside r v).trans h.outside)
    ((t.setReg_platform r v).trans h.platform) ((t.setReg_pins r v).trans h.pins) ((t.setReg_clocks r v).trans h.clocks)

/-- A pair loaded, high register first. -/
theorem setPair (h : ReadTo s t o) (x y : Reg) (hi lo : Byte) (n : Nat) :
    s.Became (((t.setReg x hi).setReg y lo).tick n)
      { s.cpu with regs := Function.update (Function.update s.getReg x hi) y lo } o n := by
  have hregs : (t.setReg x hi).getReg = Function.update s.getReg x hi := by
    rw [← h.getReg]
    exact congrArg Cpu.regs (t.setReg_cpu x hi)
  refine became_tick n ?_ ?_ ?_ ?_ ?_
  · rw [State.setReg_cpu, State.setReg_cpu, h.cpu, hregs]
  · rw [State.setReg_outside, State.setReg_outside, h.outside]
  · rw [State.setReg_platform, State.setReg_platform, h.platform]
  · rw [State.setReg_pins, State.setReg_pins, h.pins]
  · rw [State.setReg_clocks, State.setReg_clocks, h.clocks]

end ReadTo

/-- One read, recorded as `c`. -/
theorem rawRead_readTo (s : State) (a : Word) (c : BusCycle) :
    ReadTo s ((s.rawRead a).2.logCycle c) { (s.rawRead a).2.outside with bus := s.bus ++ [c] } where
  cpu := (State.logCycle_cpu _ c).trans (rawRead_cpu s a)
  outside := by rw [State.logCycle_outside, rawRead_bus]
  mem := rawRead_mem s a
  platform := rawRead_platform s a
  pins := rawRead_pins s a
  clocks := rawRead_clocks s a

/-- Two reads, recorded as `c` and `d`. -/
theorem rawRead_two_readTo (s : State) (a b : Word) (c d : BusCycle) :
    ReadTo s ((((s.rawRead a).2.rawRead b).2.logCycle c).logCycle d)
      { ((s.rawRead a).2.rawRead b).2.outside with bus := s.bus ++ [c, d] } where
  cpu := by rw [State.logCycle_cpu, State.logCycle_cpu, rawRead_cpu, rawRead_cpu]
  outside := by
    rw [State.logCycle_outside, State.logCycle_outside, State.logCycle_bus, rawRead_bus, rawRead_bus, List.append_assoc]
    rfl
  mem := (rawRead_mem _ b).trans (rawRead_mem s a)
  platform := (rawRead_platform _ b).trans (rawRead_platform s a)
  pins := (rawRead_pins _ b).trans (rawRead_pins s a)
  clocks := (rawRead_clocks _ b).trans (rawRead_clocks s a)

/-- Two memory reads after one another, undisturbed: the bytes read and the state after. -/
theorem readMem_two {s : State} (h : s.Undisturbed) (a b : Word) :
    (s.readMem a).1 = (s.rawRead a).1 ∧ ((s.readMem a).2.readMem b).1 = ((s.rawRead a).2.rawRead b).1 ∧
      ReadTo s ((s.readMem a).2.readMem b).2
        { ((s.rawRead a).2.rawRead b).2.outside with
          bus := s.bus ++ [.memRead a (s.rawRead a).1, .memRead b ((s.rawRead a).2.rawRead b).1] } := by
  have hr := rawRead_two_readTo s a b (.memRead a (s.rawRead a).1) (.memRead b ((s.rawRead a).2.rawRead b).1)
  have hcalm := readMem_calm h a
  rw [readMem_undisturbed h] at hcalm ⊢
  rw [readMem_undisturbed hcalm, rawRead_logCycle]
  exact ⟨rfl, rfl, hr⟩

/-- Two stack reads after one another, undisturbed: the bytes read and the state after. -/
theorem readStack_two {s : State} (h : s.Undisturbed) (a b : Word) :
    (s.readStack a).1 = (s.rawRead a).1 ∧ ((s.readStack a).2.readStack b).1 = ((s.rawRead a).2.rawRead b).1 ∧
      ReadTo s ((s.readStack a).2.readStack b).2
        { ((s.rawRead a).2.rawRead b).2.outside with
          bus := s.bus ++ [.stackRead a (s.rawRead a).1, .stackRead b ((s.rawRead a).2.rawRead b).1] } := by
  have hr := rawRead_two_readTo s a b (.stackRead a (s.rawRead a).1) (.stackRead b ((s.rawRead a).2.rawRead b).1)
  have hcalm := readStack_calm h a
  rw [readStack_undisturbed h] at hcalm ⊢
  rw [readStack_undisturbed hcalm, rawRead_logCycle]
  exact ⟨rfl, rfl, hr⟩

/-- The two bytes of a word in H and L. -/
theorem setHl_mkWord (s : State) (hi lo : Byte) : s.setHl (mkWord hi lo) = (s.setReg .h hi).setReg .l lo := by
  rw [State.setHl_eq_setReg, hiByte_mkWord, loByte_mkWord]

theorem hl_of_setReg (s : State) (hi lo : Byte) (n : Nat) :
    (((s.setReg .h hi).setReg .l lo).tick n).l = lo ∧ (((s.setReg .h hi).setReg .l lo).tick n).h = hi := ⟨rfl, rfl⟩

/-! ### Writes, undisturbed -/

/-- `t` is `s` after write cycles that nothing disturbs, recorded as `cycles`: memory reads as `after`, nothing else is
touched. -/
structure WroteTo (s t : State) (cycles : List BusCycle) (after : Word → Byte) : Prop where
  peek : ∀ x, t.peek x = after x
  outside : t.outside = { s.outside with mem := t.mem, bus := s.bus ++ cycles }
  clocks : t.clocks = s.clocks

theorem rawWrite_wroteTo {s : State} (a : Word) (v : Byte) (c : BusCycle) (hwf : s.mem.wf) :
    WroteTo s ((s.rawWrite a v).logCycle c) [c] fun x => s.storedAt a v x (s.peek x) where
  peek := fun x => rawWrite_peek a v x hwf
  outside := by simp [State.outside]
  clocks := rawWrite_clocks s a v

theorem rawWrite_two_wroteTo {s : State} (a b : Word) (v w : Byte) (c d : BusCycle) (hwf : s.mem.wf) :
    WroteTo s ((((s.rawWrite a v).logCycle c).rawWrite b w).logCycle d) [c, d]
      fun x => s.storedAt b w x (s.storedAt a v x (s.peek x)) where
  peek := fun x => rawWrite_two_peek a b v w c x hwf
  outside := by simp [State.outside]
  clocks := by simp

/-- Two memory writes after one another, undisturbed. -/
theorem writeMem_two {s : State} (hu : s.Undisturbed) (hwf : s.mem.wf) (a b : Word) (v w : Byte) :
    WroteTo s ((s.writeMem a v).writeMem b w) [.memWrite a v, .memWrite b w]
      fun x => s.storedAt b w x (s.storedAt a v x (s.peek x)) := by
  have hcalm := writeMem_calm hu a v
  rw [writeMem_undisturbed hcalm, writeMem_undisturbed hu]
  exact rawWrite_two_wroteTo a b v w _ _ hwf

/-- Two stack writes after one another, undisturbed. -/
theorem writeStack_two {s : State} (hu : s.Undisturbed) (hwf : s.mem.wf) (a b : Word) (v w : Byte) :
    WroteTo s ((s.writeStack a v).writeStack b w) [.stackWrite a v, .stackWrite b w]
      fun x => s.storedAt b w x (s.storedAt a v x (s.peek x)) := by
  have hcalm := writeStack_calm hu a v
  rw [writeStack_undisturbed hcalm, writeStack_undisturbed hu]
  exact rawWrite_two_wroteTo a b v w _ _ hwf

/-! ### Data transfer -/

/-- Settles O33: one register written, no cycle in between. -/
theorem moveResult : Obligations.MoveResult := by
  intro s
  have hs : ReadTo s s s.outside := ⟨rfl, rfl, rfl, rfl, rfl, rfl⟩
  exact ⟨fun dst src => ⟨_, rfl, hs.setReg dst (s.getReg src) 5⟩, fun dst data => ⟨_, rfl, hs.setReg dst data 7⟩⟩

/-- What a load of `dst` from `a` leaves. -/
theorem load_result {s : State} (hu : s.Undisturbed) (dst : Reg) (a : Word) (n : Nat) :
    s.Became (((s.readMem a).2.setReg dst (s.readMem a).1).tick n)
        { s.cpu with regs := Function.update s.getReg dst (s.rawRead a).1 }
        { (s.rawRead a).2.outside with bus := s.bus ++ [.memRead a (s.rawRead a).1] } n ∧
      (∀ x, (((s.readMem a).2.setReg dst (s.readMem a).1).tick n).peek x = s.peek x) ∧
      (s.HoldsMemory a → (((s.readMem a).2.setReg dst (s.readMem a).1).tick n).getReg dst = s.peek a) := by
  have hr := rawRead_readTo s a (.memRead a (s.rawRead a).1)
  rw [readMem_undisturbed hu]
  refine ⟨hr.setReg dst _ n, fun x => ?_, fun hm => ?_⟩
  · rw [State.tick_peek, State.setReg_peek, hr.peek]
  · rw [State.tick_getReg, State.getReg_setReg, if_pos rfl, rawRead_of_memory hm]

/-- Settles O34: one read, then the register, for each form of load. -/
theorem loadResult : Obligations.LoadResult := by
  intro s i dst a n hform hu
  cases hform with
  | movRM => exact ⟨_, rfl, load_result hu dst s.hl 7⟩
  | lda => exact ⟨_, rfl, load_result hu .a a 13⟩
  | ldaxB => exact ⟨_, rfl, load_result hu .a s.bc 7⟩
  | ldaxD => exact ⟨_, rfl, load_result hu .a s.de 7⟩

/-- What a store of `v` to `a` leaves. -/
theorem store_result (s : State) (a : Word) (v : Byte) (n : Nat) :
    ((s.writeMem a v).tick n).cpu = s.cpu ∧ ((s.writeMem a v).tick n).platform = s.platform ∧
      ((s.writeMem a v).tick n).pins = s.pins ∧
      (s.Undisturbed → s.mem.wf →
        (∀ x, ((s.writeMem a v).tick n).peek x = s.storedAt a v x (s.peek x)) ∧
          ((s.writeMem a v).tick n).outside =
            { s.outside with mem := ((s.writeMem a v).tick n).mem, bus := s.bus ++ [.memWrite a v] } ∧
          ((s.writeMem a v).tick n).clocks = s.clocks + n) := by
  have hb := writeMem_busOnly s a v
  refine ⟨(State.tick_cpu _ n).trans hb.cpu, hb.platform, hb.pins, fun hu hwf => ?_⟩
  have hw := rawWrite_wroteTo a v (.memWrite a v) hwf
  rw [writeMem_undisturbed hu]
  exact ⟨hw.peek, hw.outside, congrArg (· + n) hw.clocks⟩

/-- Settles O35: one write for each form of store. -/
theorem storeResult : Obligations.StoreResult := by
  intro s i a v n hform
  cases hform with
  | movMR src => exact ⟨_, rfl, store_result s s.hl (s.getReg src) 7⟩
  | mviM => exact ⟨_, rfl, store_result s s.hl v 10⟩
  | sta => exact ⟨_, rfl, store_result s a s.a 13⟩
  | staxB => exact ⟨_, rfl, store_result s s.bc s.a 7⟩
  | staxD => exact ⟨_, rfl, store_result s s.de s.a 7⟩

/-- LHLD: the two reads, then H and L. -/
theorem lhld_result {s : State} (hu : s.Undisturbed) (a : Word) :
    ∃ t, exec (.lhld a) s = .next t ∧
      s.Became t
        { s.cpu with
          regs := Function.update (Function.update s.getReg .h ((s.rawRead a).2.rawRead (a + 1)).1) .l (s.rawRead a).1 }
        { ((s.rawRead a).2.rawRead (a + 1)).2.outside with
          bus := s.bus ++ [.memRead a (s.rawRead a).1, .memRead (a + 1) ((s.rawRead a).2.rawRead (a + 1)).1] } 16 ∧
      (∀ x, t.peek x = s.peek x) ∧
      (s.HoldsMemory a → s.HoldsMemory (a + 1) → t.l = s.peek a ∧ t.h = s.peek (a + 1)) := by
  obtain ⟨hlo, hhi, hr⟩ := readMem_two hu a (a + 1)
  have hexec : exec (.lhld a) s = .next
      ((((s.readMem a).2.readMem (a + 1)).2.setHl
        (mkWord ((s.readMem a).2.readMem (a + 1)).1 (s.readMem a).1)).tick 16) := rfl
  rw [hlo, hhi, setHl_mkWord] at hexec
  refine ⟨_, hexec, hr.setPair .h .l _ _ 16, fun x => ?_, fun h1 h2 => ?_⟩
  · rw [State.tick_peek, State.setReg_peek, State.setReg_peek, hr.peek]
  · obtain ⟨hl, hh⟩ := hl_of_setReg ((s.readMem a).2.readMem (a + 1)).2 ((s.rawRead a).2.rawRead (a + 1)).1
      (s.rawRead a).1 16
    rw [hl, hh]
    exact rawRead_two_of_memory h1 h2

/-- SHLD: the two writes. -/
theorem shld_result (s : State) (a : Word) :
    ∃ t, exec (.shld a) s = .next t ∧ t.cpu = s.cpu ∧ t.platform = s.platform ∧ t.pins = s.pins ∧
      (s.Undisturbed → s.mem.wf →
        (∀ x, t.peek x = s.storedAt (a + 1) s.h x (s.storedAt a s.l x (s.peek x))) ∧
          t.outside = { s.outside with
            mem := t.mem, bus := s.bus ++ [.memWrite a s.l, .memWrite (a + 1) s.h] } ∧
          t.clocks = s.clocks + 16) := by
  have hb := (writeMem_busOnly s a s.l).trans (writeMem_busOnly _ (a + 1) s.h)
  refine ⟨_, rfl, (State.tick_cpu _ 16).trans hb.cpu, hb.platform, hb.pins, fun hu hwf => ?_⟩
  have hw := writeMem_two hu hwf a (a + 1) s.l s.h
  exact ⟨hw.peek, hw.outside, congrArg (· + 16) hw.clocks⟩

/-- Settles O36: LHLD and SHLD by their two cycles. -/
theorem pairTransferResult : Obligations.PairTransferResult := ⟨fun _ a hu => lhld_result hu a, shld_result⟩

/-- Settles O37: LXI and the moves of pairs, each by the update it makes. -/
theorem pairMoveResult : Obligations.PairMoveResult := by
  intro s hi lo
  refine ⟨⟨_, rfl, became_tick 10 ?_ rfl rfl rfl rfl⟩, ⟨_, rfl, became_tick 10 ?_ rfl rfl rfl rfl⟩,
    ⟨_, rfl, became_tick 10 ?_ rfl rfl rfl rfl⟩, ⟨_, rfl, became_tick 10 (s.setSp_cpu _) rfl rfl rfl rfl⟩,
    ⟨_, rfl, became_tick 5 (s.setSp_cpu _) rfl rfl rfl rfl⟩, ⟨_, rfl, became_tick 5 (s.setPc_cpu _) rfl rfl rfl rfl⟩,
    ⟨_, rfl, became_tick 4 ?_ rfl rfl rfl rfl⟩⟩
  · rw [State.setBc_cpu, hiByte_mkWord, loByte_mkWord]
  · rw [State.setDe_cpu, hiByte_mkWord, loByte_mkWord]
  · rw [State.setHl_cpu, hiByte_mkWord, loByte_mkWord]
  · have hregs : (s.setHl s.de).getReg = Function.update (Function.update s.getReg .h s.d) .l s.e := by
      refine (congrArg Cpu.regs (s.setHl_cpu s.de)).trans ?_
      rw [State.de, hiByte_mkWord, loByte_mkWord]
    rw [State.setDe_cpu, hregs, State.setHl_cpu, State.hl, hiByte_mkWord, loByte_mkWord]

/-- Settles O38: both reads, then both writes, then H and L. -/
theorem xthlResult : Obligations.XthlResult := by
  intro s hu hwf
  obtain ⟨hlo, hhi, hr⟩ := readStack_two hu s.sp (s.sp + 1)
  have hru := readStack_calm (readStack_calm hu s.sp) (s.sp + 1)
  have hexec : exec .xthl s = .next
      ((((((s.readStack s.sp).2.readStack (s.sp + 1)).2.writeStack (s.sp + 1) s.h).writeStack s.sp s.l).setHl
        (mkWord ((s.readStack s.sp).2.readStack (s.sp + 1)).1 (s.readStack s.sp).1)).tick 18) := rfl
  rw [hlo, hhi, setHl_mkWord] at hexec
  generalize ((s.readStack s.sp).2.readStack (s.sp + 1)).2 = r at hr hru hexec
  have hb := (writeStack_busOnly r (s.sp + 1) s.h).trans (writeStack_busOnly _ s.sp s.l)
  have hw := writeStack_two hru (hr.mem ▸ hwf) (s.sp + 1) s.sp s.h s.l
  generalize (r.writeStack (s.sp + 1) s.h).writeStack s.sp s.l = w at hb hw hexec
  have hrbus := congrArg Outside.bus hr.outside
  have hwcpu : w.cpu = s.cpu := hb.cpu.trans hr.cpu
  have hwregs : (w.setReg .h ((s.rawRead s.sp).2.rawRead (s.sp + 1)).1).getReg =
      Function.update s.getReg .h ((s.rawRead s.sp).2.rawRead (s.sp + 1)).1 := by
    refine (congrArg Cpu.regs (w.setReg_cpu .h _)).trans ?_
    exact congrArg (Function.update · .h _) (congrArg Cpu.regs hwcpu)
  refine ⟨_, hexec, ?_, fun x => ?_, ?_, ?_, ?_, ?_, fun h1 h2 => ?_⟩
  · rw [State.tick_cpu, State.setReg_cpu, State.setReg_cpu, hwregs, hwcpu]
  · rw [State.tick_peek, State.setReg_peek, State.setReg_peek, hw.peek, storedAt_congr hr.platform,
      storedAt_congr hr.platform, hr.peek]
  · have hbus : r.bus ++ [BusCycle.stackWrite (s.sp + 1) s.h, .stackWrite s.sp s.l] =
        s.bus ++ [.stackRead s.sp (s.rawRead s.sp).1,
          .stackRead (s.sp + 1) ((s.rawRead s.sp).2.rawRead (s.sp + 1)).1, .stackWrite (s.sp + 1) s.h,
          .stackWrite s.sp s.l] := by
      refine (congrArg (· ++ _) hrbus).trans ?_
      exact List.append_assoc _ _ _
    rw [State.tick_outside, State.setReg_outside, State.setReg_outside, hw.outside, hbus, hr.outside, State.tick_mem,
      State.setReg_mem, State.setReg_mem]
  · rw [State.tick_platform, State.setReg_platform, State.setReg_platform, hb.platform, hr.platform]
  · rw [State.tick_pins, State.setReg_pins, State.setReg_pins, hb.pins, hr.pins]
  · rw [State.tick_clocks, State.setReg_clocks, State.setReg_clocks, hw.clocks, hr.clocks]
  · obtain ⟨hl, hh⟩ := hl_of_setReg w ((s.rawRead s.sp).2.rawRead (s.sp + 1)).1 (s.rawRead s.sp).1 18
    rw [hl, hh]
    exact rawRead_two_of_memory h1 h2

end Sys2Proof.Machine
end

section
/-! Proofs for the port, control, branch and stack statements. -/

namespace Sys2Proof.Machine

/-! ### Ports, and a load after a store -/

theorem rawInput_readTo (s : State) (p : Byte) (c : BusCycle) :
    ReadTo s ((s.rawInput p).2.logCycle c) { (s.rawInput p).2.outside with bus := s.bus ++ [c] } where
  cpu := (State.logCycle_cpu _ c).trans (rawInput_answerOnly s p).cpu
  outside := by rw [State.logCycle_outside, (rawInput_answerOnly s p).bus]
  mem := (rawInput_answerOnly s p).mem
  platform := (rawInput_answerOnly s p).platform
  pins := (rawInput_answerOnly s p).pins
  clocks := (rawInput_answerOnly s p).clocks

/-- A device behind a port gives its next answer (40_data_transfer.md R138). -/
theorem rawInput_answers {s : State} {port v : Byte} {rest : List Byte} (hp : port ∉ s.platform.absentInputs)
    (ha : s.answers = v :: rest) : s.rawInput port = (v, { s with answers := rest }) := by
  rw [State.rawInput, if_neg hp, State.deviceAnswer, ha]

/-- Settles O39: one input or output cycle. -/
theorem inOutResult : Obligations.InOutResult := by
  intro s port hu
  refine ⟨?_, ?_⟩
  · have hr := rawInput_readTo s port (.input port (s.rawInput port).1)
    have hexec : exec (.inPort port) s = .next (((s.readPort port).2.setReg .a (s.readPort port).1).tick 10) := rfl
    rw [readPort_undisturbed hu] at hexec
    refine ⟨_, hexec, hr.setReg .a _ 10, hr.mem, fun v rest hp ha => ?_⟩
    rw [rawInput_answers hp ha]
    exact ⟨rfl, rfl⟩
  · have hexec : exec (.outPort port) s = .next ((s.writePort port s.a).tick 10) := rfl
    rw [writePort_undisturbed hu] at hexec
    exact ⟨_, hexec, became_tick 10 (State.logCycle_cpu s _) (State.logCycle_outside s _) rfl rfl rfl⟩

/-- A load from `b` after a store of A to `a`. -/
theorem load_after_store {s : State} (hu : s.Undisturbed) (hwf : s.mem.wf) (a b : Word) (hb : s.HoldsMemory b) :
    ∃ t, execAll [.sta a, .lda b] s = .next t ∧ t.a = s.storedAt a s.a b (s.peek b) := by
  obtain ⟨-, -, -, hstore⟩ := store_result s a s.a 13
  obtain ⟨hpeek, -, -⟩ := hstore hu hwf
  have hcalm : ((s.writeMem a s.a).tick 13).Undisturbed := writeMem_calm hu a s.a
  have hmem : ((s.writeMem a s.a).tick 13).HoldsMemory b := by
    have hk := (writeMem_busOnly s a s.a).kindAt b
    rw [State.HoldsMemory, State.tick_kindAt, hk]
    exact hb
  obtain ⟨-, -, hload⟩ := load_result hcalm .a b 13
  exact ⟨_, rfl, (hload hmem).trans (hpeek b)⟩

/-- Settles O40: MVI A touches neither memory nor its kinds. -/
theorem loadSeesStore : Obligations.LoadSeesStore := by
  intro s a b v hu hwf hb
  exact load_after_store (s := (s.setReg .a v).tick 7) hu hwf a b hb

/-! ### Control -/

/-- Settles O41: one cycle after the halt is set. -/
theorem hltResult : Obligations.HltResult := by
  intro s hu
  have hexec : exec .hlt s = .next ((State.writeCycle { s with halted := true } id .haltAck).tick 7) := rfl
  rw [writeCycle_undisturbed (s := { s with halted := true }) hu] at hexec
  refine ⟨_, hexec, became_tick 7 ?_ rfl rfl rfl rfl⟩
  refine Cpu.eq_of (fun r => ?_) rfl
  cases r <;> rfl

/-- Settles O42: each writes CY or nothing. -/
theorem carryControlResult : Obligations.CarryControlResult := fun s =>
  ⟨⟨_, rfl, became_tick 4 (s.setCarry_cpu true) rfl rfl rfl rfl⟩,
    ⟨_, rfl, became_tick 4 (s.setCarry_cpu _) rfl rfl rfl rfl⟩, ⟨_, rfl, became_tick 4 rfl rfl rfl rfl rfl⟩⟩

theorem eiHoldsOff_eq (d : EiDelay) : eiHoldsOff d = decide (d = .one) := by cases d <;> rfl

theorem not_eiHoldsOff_eq (d : EiDelay) : (!eiHoldsOff d) = decide (d = .none) := by cases d <;> rfl

/-- Settles O43: `ei_inhibit` follows EI_DELAY. -/
theorem eiDiResult : Obligations.EiDiResult := by
  intro s
  refine ⟨⟨_, rfl, became_tick 4 ?_ rfl rfl rfl rfl, ?_⟩, ⟨_, rfl, became_tick 4 ?_ rfl rfl rfl rfl, rfl⟩⟩
  · rw [← eiHoldsOff_eq]
    refine Cpu.eq_of (fun r => ?_) rfl
    cases r <;> rfl
  · rw [← not_eiHoldsOff_eq]
    rfl
  · refine Cpu.eq_of (fun r => ?_) rfl
    cases r <;> rfl

/-! ### Branch -/

theorem jumpIf_result (s : State) (cond : Cond) (target : Word) {taken : Bool} (h : cond.holds s.flags = taken) :
    s.Became (s.jumpIf cond target) { s.cpu with pc := if taken then target else s.pc } s.outside 10 := by
  rw [jumpIf_eq s cond target taken h]
  exact became_tick 10 (s.setPc_cpu _) rfl rfl rfl rfl

/-- Settles O44: each jump by its condition. -/
theorem jumpResult : Obligations.JumpResult := by
  intro s i addr taken hform
  cases hform with
  | jmp => exact ⟨_, rfl, became_tick 10 (s.setPc_cpu addr) rfl rfl rfl rfl⟩
  | jc => exact ⟨_, rfl, jumpIf_result s .c addr rfl⟩
  | jnc => exact ⟨_, rfl, jumpIf_result s .nc addr rfl⟩
  | jz => exact ⟨_, rfl, jumpIf_result s .z addr rfl⟩
  | jnz => exact ⟨_, rfl, jumpIf_result s .nz addr rfl⟩
  | jp => exact ⟨_, rfl, jumpIf_result s .p addr rfl⟩
  | jm => exact ⟨_, rfl, jumpIf_result s .m addr rfl⟩
  | jpe => exact ⟨_, rfl, jumpIf_result s .pe addr rfl⟩
  | jpo => exact ⟨_, rfl, jumpIf_result s .po addr rfl⟩

/-- `t` is `s` after a call of `target` of `n` clock cycles. -/
def State.Called (s t : State) (target : Word) (n : Nat) : Prop :=
  t.cpu = { s.cpu with pc := target, sp := s.sp - 2 } ∧ t.platform = s.platform ∧ t.pins = s.pins ∧
    (s.Undisturbed → s.mem.wf →
      (∀ x, t.peek x =
        s.storedAt (s.sp - 2) (loByte s.pc) x (s.storedAt (s.sp - 1) (hiByte s.pc) x (s.peek x))) ∧
      t.outside = { s.outside with
        mem := t.mem
        bus := s.bus ++ [.stackWrite (s.sp - 1) (hiByte s.pc), .stackWrite (s.sp - 2) (loByte s.pc)] } ∧
      t.clocks = s.clocks + n)

theorem callTo_called (s : State) (target : Word) (n : Nat) : s.Called ((s.callTo target).tick n) target n := by
  have hk := push16_memoryKept s s.pc
  refine ⟨by rw [State.tick_cpu, callTo_cpu], hk.platform, hk.pins, fun hu hwf => ?_⟩
  obtain ⟨hpeek, houtside, hclocks⟩ := push16_spec s s.pc hu hwf
  exact ⟨hpeek, houtside, congrArg (· + n) hclocks⟩

theorem callIf_result (s : State) (cond : Cond) (target : Word) {taken : Bool} (h : cond.holds s.flags = taken) :
    (taken = false → s.Became (s.callIf cond target) s.cpu s.outside 11) ∧
      (taken = true → s.Called (s.callIf cond target) target 17) := by
  refine ⟨fun ht => ?_, fun ht => ?_⟩
  · rw [callIf_not target (h.trans ht)]
    exact became_tick 11 rfl rfl rfl rfl rfl
  · rw [callIf_taken target (h.trans ht)]
    exact callTo_called s target 17

/-- Settles O45: each call by its condition. -/
theorem callResult : Obligations.CallResult := by
  intro s i target taken n m hform
  cases hform with
  | call => exact ⟨_, rfl, fun h => (by cases h), fun _ => callTo_called s target 17⟩
  | rst vvv =>
    refine ⟨_, rfl, fun h => (by cases h), fun _ => ?_⟩
    rw [← rst_target]
    exact callTo_called s _ 11
  | cc => exact ⟨_, rfl, callIf_result s .c target rfl⟩
  | cnc => exact ⟨_, rfl, callIf_result s .nc target rfl⟩
  | cz => exact ⟨_, rfl, callIf_result s .z target rfl⟩
  | cnz => exact ⟨_, rfl, callIf_result s .nz target rfl⟩
  | cp => exact ⟨_, rfl, callIf_result s .p target rfl⟩
  | cm => exact ⟨_, rfl, callIf_result s .m target rfl⟩
  | cpe => exact ⟨_, rfl, callIf_result s .pe target rfl⟩
  | cpo => exact ⟨_, rfl, callIf_result s .po target rfl⟩

/-- `t` is `s` after a return of `n` clock cycles. -/
def State.Returned (s t : State) (n : Nat) : Prop :=
  s.Became t
      { s.cpu with
        pc := mkWord ((s.rawRead s.sp).2.rawRead (s.sp + 1)).1 (s.rawRead s.sp).1, sp := s.sp + 2 }
      { ((s.rawRead s.sp).2.rawRead (s.sp + 1)).2.outside with
        bus := s.bus ++ [.stackRead s.sp (s.rawRead s.sp).1,
          .stackRead (s.sp + 1) ((s.rawRead s.sp).2.rawRead (s.sp + 1)).1] } n ∧
    (s.HoldsMemory s.sp → s.HoldsMemory (s.sp + 1) → t.pc = mkWord (s.peek (s.sp + 1)) (s.peek s.sp)) ∧
    ∀ x, t.peek x = s.peek x

theorem returnTo_returned {s : State} (hu : s.Undisturbed) (n : Nat) : s.Returned (s.returnTo.tick n) n := by
  obtain ⟨hv, houtside, hclocks, hpeek⟩ := pop16_spec s hu
  have hk := pop16_memoryKept s
  refine ⟨became_tick n ?_ houtside hk.platform hk.pins hclocks, pop16_of_memory hu, hpeek⟩
  rw [returnTo_cpu, hv]

theorem returnIf_result {s : State} (hu : s.Undisturbed) (cond : Cond) {taken : Bool}
    (h : cond.holds s.flags = taken) :
    (taken = false → s.Became (s.returnIf cond) s.cpu s.outside 5) ∧
      (taken = true → s.Returned (s.returnIf cond) 11) := by
  refine ⟨fun ht => ?_, fun ht => ?_⟩
  · rw [returnIf_not (h.trans ht)]
    exact became_tick 5 rfl rfl rfl rfl rfl
  · rw [returnIf_taken (h.trans ht)]
    exact returnTo_returned hu 11

/-- Settles O46: each return by its condition. -/
theorem returnResult : Obligations.ReturnResult := by
  intro s i taken n m hform hu
  cases hform with
  | ret => exact ⟨_, rfl, fun h => (by cases h), fun _ => returnTo_returned hu 10⟩
  | rc => exact ⟨_, rfl, returnIf_result hu .c rfl⟩
  | rnc => exact ⟨_, rfl, returnIf_result hu .nc rfl⟩
  | rz => exact ⟨_, rfl, returnIf_result hu .z rfl⟩
  | rnz => exact ⟨_, rfl, returnIf_result hu .nz rfl⟩
  | rp => exact ⟨_, rfl, returnIf_result hu .p rfl⟩
  | rm => exact ⟨_, rfl, returnIf_result hu .m rfl⟩
  | rpe => exact ⟨_, rfl, returnIf_result hu .pe rfl⟩
  | rpo => exact ⟨_, rfl, returnIf_result hu .po rfl⟩

/-! ### Stack -/

/-- What a push of two bytes leaves. -/
theorem push_result (s : State) (hi lo : Byte) :
    ((s.push16 (mkWord hi lo)).tick 11).cpu = { s.cpu with sp := s.sp - 2 } ∧
      ((s.push16 (mkWord hi lo)).tick 11).platform = s.platform ∧
      ((s.push16 (mkWord hi lo)).tick 11).pins = s.pins ∧
      (s.Undisturbed → s.mem.wf →
        (∀ x, ((s.push16 (mkWord hi lo)).tick 11).peek x =
            s.storedAt (s.sp - 2) lo x (s.storedAt (s.sp - 1) hi x (s.peek x))) ∧
          ((s.push16 (mkWord hi lo)).tick 11).outside = { s.outside with
            mem := ((s.push16 (mkWord hi lo)).tick 11).mem
            bus := s.bus ++ [.stackWrite (s.sp - 1) hi, .stackWrite (s.sp - 2) lo] } ∧
          ((s.push16 (mkWord hi lo)).tick 11).clocks = s.clocks + 11) := by
  have hk := push16_memoryKept s (mkWord hi lo)
  refine ⟨by rw [State.tick_cpu, push16_cpu], hk.platform, hk.pins, fun hu hwf => ?_⟩
  have hspec := push16_spec s (mkWord hi lo) hu hwf
  rw [hiByte_mkWord, loByte_mkWord] at hspec
  obtain ⟨hpeek, houtside, hclocks⟩ := hspec
  exact ⟨hpeek, houtside, congrArg (· + 11) hclocks⟩

/-- Settles O53: the two bytes of each push. -/
theorem pushResult : Obligations.PushResult := by
  intro s i hi lo hform
  cases hform with
  | pushB => exact ⟨_, rfl, push_result s s.b s.c⟩
  | pushD => exact ⟨_, rfl, push_result s s.d s.e⟩
  | pushH => exact ⟨_, rfl, push_result s s.h s.l⟩
  | pushPsw => exact ⟨_, rfl, push_result s s.a s.flags.toByte⟩

/-- What a pop into the registers `x` and `y` leaves. -/
theorem pop_pair_result {s : State} (hu : s.Undisturbed) (x y : Reg) :
    s.Became (((s.pop16.2.setReg x (hiByte s.pop16.1)).setReg y (loByte s.pop16.1)).tick 10)
        { s.cpu with
          regs := Function.update (Function.update s.getReg x ((s.rawRead s.sp).2.rawRead (s.sp + 1)).1) y
            (s.rawRead s.sp).1
          sp := s.sp + 2 }
        { ((s.rawRead s.sp).2.rawRead (s.sp + 1)).2.outside with
          bus := s.bus ++ [.stackRead s.sp (s.rawRead s.sp).1,
            .stackRead (s.sp + 1) ((s.rawRead s.sp).2.rawRead (s.sp + 1)).1] } 10 ∧
      ∀ q, (((s.pop16.2.setReg x (hiByte s.pop16.1)).setReg y (loByte s.pop16.1)).tick 10).peek q = s.peek q := by
  obtain ⟨hv, houtside, hclocks, hpeek⟩ := pop16_spec s hu
  have hk := pop16_memoryKept s
  have hcpu := pop16_cpu s
  have hregs : s.pop16.2.getReg = s.getReg := congrArg Cpu.regs hcpu
  rw [hv, hiByte_mkWord, loByte_mkWord]
  generalize s.pop16.2 = p at houtside hclocks hpeek hk hcpu hregs
  have hregs₁ := congrArg Cpu.regs (p.setReg_cpu x ((s.rawRead s.sp).2.rawRead (s.sp + 1)).1)
  rw [State.cpu_regs] at hregs₁
  refine ⟨became_tick 10 ?_ ?_ ?_ ?_ ?_, fun q => ?_⟩
  · rw [State.setReg_cpu, hregs₁, State.setReg_cpu, hcpu, hregs]
  · rw [State.setReg_outside, State.setReg_outside, houtside]
  · rw [State.setReg_platform, State.setReg_platform, hk.platform]
  · rw [State.setReg_pins, State.setReg_pins, hk.pins]
  · rw [State.setReg_clocks, State.setReg_clocks, hclocks]
  · rw [State.tick_peek, State.setReg_peek, State.setReg_peek, hpeek]

/-- What POP PSW leaves. -/
theorem pop_psw_result {s : State} (hu : s.Undisturbed) :
    s.Became ((s.pop16.2.setPsw s.pop16.1).tick 10)
        { s.cpu with
          regs := Function.update s.getReg .a ((s.rawRead s.sp).2.rawRead (s.sp + 1)).1
          flags := Flags.ofByte (s.rawRead s.sp).1
          sp := s.sp + 2 }
        { ((s.rawRead s.sp).2.rawRead (s.sp + 1)).2.outside with
          bus := s.bus ++ [.stackRead s.sp (s.rawRead s.sp).1,
            .stackRead (s.sp + 1) ((s.rawRead s.sp).2.rawRead (s.sp + 1)).1] } 10 ∧
      ∀ q, ((s.pop16.2.setPsw s.pop16.1).tick 10).peek q = s.peek q := by
  obtain ⟨hv, houtside, hclocks, hpeek⟩ := pop16_spec s hu
  have hk := pop16_memoryKept s
  have hcpu := pop16_cpu s
  have hregs : s.pop16.2.getReg = s.getReg := congrArg Cpu.regs hcpu
  refine ⟨became_tick 10 ?_ houtside hk.platform hk.pins hclocks, hpeek⟩
  rw [State.setPsw_cpu, hcpu, hregs, hv, hiByte_mkWord, loByte_mkWord]

/-- Settles O54: the two bytes of each pop, then the registers or the PSW. -/
theorem popResult : Obligations.PopResult := by
  rintro s _ _ hu rfl rfl
  refine ⟨fun i rh rl hform => ?_, ?_⟩
  · cases hform with
    | popB =>
      obtain ⟨hbecame, hpeek⟩ := pop_pair_result hu .b .c
      exact ⟨_, rfl, hbecame, hpeek, rawRead_two_of_memory⟩
    | popD =>
      obtain ⟨hbecame, hpeek⟩ := pop_pair_result hu .d .e
      exact ⟨_, rfl, hbecame, hpeek, rawRead_two_of_memory⟩
    | popH =>
      obtain ⟨hbecame, hpeek⟩ := pop_pair_result hu .h .l
      exact ⟨_, rfl, hbecame, hpeek, rawRead_two_of_memory⟩
  · exact ⟨_, rfl, pop_psw_result hu⟩

/-! ### The flag byte on the stack (10_state.md R27) -/

theorem Flags.toByte_fixedBits (f : Flags) :
    f.toByte.getLsbD 5 = false ∧ f.toByte.getLsbD 3 = false ∧ f.toByte.getLsbD 1 = true := by
  rcases f with ⟨_ | _, _ | _, _ | _, _ | _, _ | _⟩ <;> exact ⟨rfl, rfl, rfl⟩

@[simp] theorem Flags.ofByte_toByte (f : Flags) : Flags.ofByte f.toByte = f := by
  rw [Flags.ofByte, Flags.toByte_bit7, Flags.toByte_bit6, Flags.toByte_bit4, Flags.toByte_bit2, Flags.toByte_bit0]

/-- POP PSW of a pushed PSW, with A and the flags changed meanwhile. -/
theorem pop_psw_restores {s t : State} {regs : Reg → Byte} {f : Flags} (hu : t.Undisturbed)
    (hcpu : t.cpu = { s.cpu with regs := regs, flags := f, sp := s.sp - 2 }) (hregs : ∀ r, r ≠ .a → regs r = s.getReg r)
    (h1 : t.kindAt (s.sp - 1) = .ram) (h2 : t.kindAt (s.sp - 2) = .ram) (hhi : t.peek (s.sp - 1) = s.a)
    (hlo : t.peek (s.sp - 2) = s.flags.toByte) :
    ∃ u, exec .popPsw t = .next u ∧ u.cpu = s.cpu ∧ u.peek (s.sp - 2) = s.flags.toByte := by
  obtain ⟨⟨hucpu, -⟩, hpeek⟩ := pop_psw_result hu
  have hsp : t.sp = s.sp - 2 := congrArg Cpu.sp hcpu
  have hnext : s.sp - 2 + 1 = s.sp - 1 := by bv_omega
  have hback : s.sp - 2 + 2 = s.sp := by bv_omega
  have htregs : t.getReg = regs := congrArg Cpu.regs hcpu
  obtain ⟨hv1, hv2⟩ := rawRead_two_of_memory (s := t) (a := t.sp) (b := t.sp + 1) (by rw [hsp]; exact .inl h2)
    (by rw [hsp, hnext]; exact .inl h1)
  have hrestored : Function.update regs .a s.a = s.getReg := by
    funext r
    by_cases hr : r = .a
    · subst hr
      exact Function.update_self ..
    · rw [Function.update_of_ne hr, hregs r hr]
  refine ⟨_, rfl, ?_, (hpeek _).trans hlo⟩
  rw [hucpu, hv1, hv2, htregs, hcpu, hsp, hnext, hback, hhi, hlo, hrestored, Flags.ofByte_toByte]
  rfl

/-- Settles O55: the push, then A and CY overwritten, then the pop of the two bytes pushed. -/
theorem pushPopPsw : Obligations.PushPopPsw := by
  intro s v hu hwf h1 h2
  obtain ⟨hhi, hlo, -⟩ := push16_ram s.psw hu hwf h1 h2
  rw [State.psw, hiByte_mkWord] at hhi
  rw [State.psw, loByte_mkWord] at hlo
  have hkind : ∀ x, (s.push16 s.psw).kindAt x = s.kindAt x := kindAt_congr (push16_memoryKept s s.psw).platform
  have hcpu := push16_cpu s s.psw
  have hregs : ((s.push16 s.psw).tick 11).getReg = s.getReg :=
    congrArg Cpu.regs ((State.tick_cpu _ 11).trans hcpu)
  obtain ⟨u, hu', hucpu, hbyte⟩ := pop_psw_restores (s := s)
    (t := ((((((s.push16 s.psw).tick 11).setReg .a v).tick 7).setCarry true).tick 4)) (push16_calm hu s.psw)
    (regs := Function.update s.getReg .a v) (f := { s.flags with carry := true })
    (by
      rw [State.tick_cpu, State.setCarry_cpu, State.tick_cpu, State.setReg_cpu, hregs, State.tick_cpu, hcpu]
      rfl)
    (fun r hr => Function.update_of_ne hr ..) ((hkind _).trans h1) ((hkind _).trans h2) hhi hlo
  obtain ⟨hbit5, hbit3, hbit1⟩ := s.flags.toByte_fixedBits
  exact ⟨u, hu', hucpu, _, hbyte, s.flags.toByte_bit7, s.flags.toByte_bit6, hbit5, s.flags.toByte_bit4, hbit3,
    s.flags.toByte_bit2, hbit1, s.flags.toByte_bit0⟩

end Sys2Proof.Machine
end

section
/-! Proofs for the arithmetic, logical, increment and decrement statements. -/

namespace Sys2Proof.Machine

/-! ### Addition, subtraction, comparison -/

/-- Settles O47: `add8` in numbers, for each form. -/
theorem addResult : Obligations.AddResult := by
  intro s i v cin n hform
  cases hform with
  | addR src => exact ⟨_, rfl, became_tick 4 (s.addA_cpu _ _) rfl rfl rfl rfl⟩
  | adcR src => exact ⟨_, rfl, became_tick 4 (s.addA_cpu _ _) rfl rfl rfl rfl⟩
  | adi => exact ⟨_, rfl, became_tick 7 (s.addA_cpu _ _) rfl rfl rfl rfl⟩
  | aci => exact ⟨_, rfl, became_tick 7 (s.addA_cpu _ _) rfl rfl rfl rfl⟩

/-- CMP, in numbers: the flags of a subtraction without borrow in. -/
theorem cmpA_numbers (s : State) (v : Byte) :
    (s.cmpA v).cpu =
      { s.cpu with
        flags := resultFlags (BitVec.ofInt 8 ((s.a.toNat : ℤ) - v.toNat)).toNat (decide (s.a.toNat < v.toNat))
          (decide (v.toNat % 16 ≤ s.a.toNat % 16)) } := by
  have hf := congrArg Cpu.flags (s.subA_cpu v false)
  rw [State.cpu_flags] at hf
  rw [State.cmpA_cpu, hf]
  simp only [Bool.toNat_false, Nat.add_zero, Nat.cast_zero, sub_zero]

/-- Settles O48: `sub8` in numbers, for each form. -/
theorem subtractResult : Obligations.SubtractResult := by
  refine ⟨fun s i v bin n hform => ?_, fun s i v n hform => ?_⟩
  · cases hform with
    | subR src => exact ⟨_, rfl, became_tick 4 (s.subA_cpu _ _) rfl rfl rfl rfl⟩
    | sbbR src => exact ⟨_, rfl, became_tick 4 (s.subA_cpu _ _) rfl rfl rfl rfl⟩
    | sui => exact ⟨_, rfl, became_tick 7 (s.subA_cpu _ _) rfl rfl rfl rfl⟩
    | sbi => exact ⟨_, rfl, became_tick 7 (s.subA_cpu _ _) rfl rfl rfl rfl⟩
  · cases hform with
    | cmpR src => exact ⟨_, rfl, became_tick 4 (cmpA_numbers s _) rfl rfl rfl rfl⟩
    | cpi => exact ⟨_, rfl, became_tick 7 (cmpA_numbers s _) rfl rfl rfl rfl⟩

/-! ### The memory operand -/

/-- An operation of the processor alone that depends on the processor and the platform alone. -/
structure CpuOnly (f : State → State) : Prop where
  cpu : ∀ {s t : State}, t.cpu = s.cpu → t.platform = s.platform → (f t).cpu = (f s).cpu
  outside : ∀ s, (f s).outside = s.outside
  platform : ∀ s, (f s).platform = s.platform
  pins : ∀ s, (f s).pins = s.pins
  clocks : ∀ s, (f s).clocks = s.clocks

theorem addA_cpuOnly (v : Byte) (cin : Bool) : CpuOnly fun s => s.addA v cin where
  cpu := fun h _ => State.addA_congr h v cin
  outside := fun _ => rfl
  platform := fun _ => rfl
  pins := fun _ => rfl
  clocks := fun _ => rfl

theorem subA_cpuOnly (v : Byte) (bin : Bool) : CpuOnly fun s => s.subA v bin where
  cpu := fun h _ => State.subA_congr h v bin
  outside := fun _ => rfl
  platform := fun _ => rfl
  pins := fun _ => rfl
  clocks := fun _ => rfl

theorem cmpA_cpuOnly (v : Byte) : CpuOnly fun s => s.cmpA v where
  cpu := fun h _ => State.cmpA_congr h v
  outside := fun _ => rfl
  platform := fun _ => rfl
  pins := fun _ => rfl
  clocks := fun _ => rfl

/-- The logical operations: a result and an intermediate carry from A and the platform. -/
theorem setLogic_cpuOnly (res : Byte → Byte) (ac : Platform → Byte → Bool) :
    CpuOnly fun s => s.setLogic (res s.a) (ac s.platform s.a) where
  cpu := fun {s t} h hp => by
    have ha : t.a = s.a := (State.of_cpu_eq h).1 .a
    rw [ha, hp]
    exact State.setLogic_congr h _ _
  outside := fun _ => rfl
  platform := fun _ => rfl
  pins := fun _ => rfl
  clocks := fun _ => rfl

/-- The operation after one read, beside the operation alone. -/
theorem CpuOnly.after_read {f : State → State} (hf : CpuOnly f) {s r : State} {o : Outside} (hr : ReadTo s r o) :
    s.Became ((f r).tick 7) ((f s).tick 7).cpu o 7 ∧ ∀ x, ((f r).tick 7).peek x = s.peek x := by
  refine ⟨became_tick 7 ?_ ((hf.outside r).trans hr.outside) ((hf.platform r).trans hr.platform)
    ((hf.pins r).trans hr.pins) ((hf.clocks r).trans hr.clocks), fun x => ?_⟩
  · rw [State.tick_cpu, hf.cpu hr.cpu hr.platform]
  · have hmem : (f r).mem = r.mem := congrArg Outside.mem (hf.outside r)
    rw [State.tick_peek, State.peek, hmem, ← State.peek, hr.peek]

/-- A memory form `i` and its immediate form `j` that both do `g`, the one with the byte read at HL. -/
theorem memoryForm_result {s : State} {i j : Instr} (g : Byte → State → State) (hg : ∀ v, CpuOnly (g v))
    (hu : s.Undisturbed) (hi : exec i s = .next ((g (s.readMem s.hl).1 (s.readMem s.hl).2).tick 7))
    (hj : exec j s = .next ((g (s.rawRead s.hl).1 s).tick 7)) :
    ∃ t u, exec i s = .next t ∧ exec j s = .next u ∧
      s.Became t u.cpu
        { (s.rawRead s.hl).2.outside with bus := s.bus ++ [.memRead s.hl (s.rawRead s.hl).1] } 7 ∧
      ∀ x, t.peek x = s.peek x := by
  rw [readMem_undisturbed hu] at hi
  exact ⟨_, _, hi, hj, (hg _).after_read (rawRead_readTo s s.hl _)⟩

/-- Settles O49: the operand read, then the operation of the immediate form. -/
theorem memoryOperandResult : Obligations.MemoryOperandResult := by
  intro s i j hform hu
  cases hform with
  | add => exact memoryForm_result (fun v t => t.addA v false) (addA_cpuOnly · false) hu rfl rfl
  | adc => exact memoryForm_result (fun v t => t.addA v s.flags.carry) (addA_cpuOnly · s.flags.carry) hu rfl rfl
  | sub => exact memoryForm_result (fun v t => t.subA v false) (subA_cpuOnly · false) hu rfl rfl
  | sbb => exact memoryForm_result (fun v t => t.subA v s.flags.carry) (subA_cpuOnly · s.flags.carry) hu rfl rfl
  | ana =>
    exact memoryForm_result (fun v t => t.andA v) (fun v => setLogic_cpuOnly (· &&& v) fun p a => andAC p.anaAc a v) hu
      rfl rfl
  | xra => exact memoryForm_result (fun v t => t.xorA v) (fun v => setLogic_cpuOnly (· ^^^ v) fun _ _ => false) hu rfl rfl
  | ora => exact memoryForm_result (fun v t => t.orA v) (fun v => setLogic_cpuOnly (· ||| v) fun _ _ => false) hu rfl rfl
  | cmp => exact memoryForm_result (fun v t => t.cmpA v) cmpA_cpuOnly hu rfl rfl

/-! ### DAD -/

theorem dad_became (s : State) (v : Word) :
    s.Became ((s.dad v).tick 10)
      { s.cpu with
        regs := Function.update
          (Function.update s.getReg .h (hiByte (BitVec.ofNat 16 ((mkWord s.h s.l).toNat + v.toNat)))) .l
          (loByte (BitVec.ofNat 16 ((mkWord s.h s.l).toNat + v.toNat)))
        flags := { s.flags with carry := decide (65536 ≤ (mkWord s.h s.l).toNat + v.toNat) } } s.outside 10 := by
  rw [word_ofNat_add]
  exact became_tick 10 (s.dad_cpu v) rfl rfl rfl rfl

/-- Settles O50: `add16` in numbers, for each pair. -/
theorem dadResult : Obligations.DadResult := by
  intro s i v hform
  cases hform with
  | dadB => exact ⟨_, rfl, dad_became s s.bc⟩
  | dadD => exact ⟨_, rfl, dad_became s s.de⟩
  | dadH => exact ⟨_, rfl, dad_became s s.hl⟩
  | dadSp => exact ⟨_, rfl, dad_became s s.sp⟩

/-! ### DAA (43_arithmetic.md R207) -/

/-- What DAA adds for the low digit. -/
def daaLow (a : Nat) (ac : Bool) : Nat := if ac = true ∨ 9 < a % 16 then 6 else 0

/-- What DAA adds for the high digit. -/
def daaHigh (a : Nat) (carry : Bool) : Nat :=
  if carry = true ∨ 9 < a / 16 ∨ (9 ≤ a / 16 ∧ 9 < a % 16) then 96 else 0

theorem daaLow_cases (a : Nat) (ac : Bool) : daaLow a ac = 0 ∨ daaLow a ac = 6 := by
  unfold daaLow
  split
  · exact .inr rfl
  · exact .inl rfl

theorem daaHigh_cases (a : Nat) (carry : Bool) : daaHigh a carry = 0 ∨ daaHigh a carry = 96 := by
  unfold daaHigh
  split
  · exact .inr rfl
  · exact .inl rfl

theorem lowDigit_toNat (a : Byte) : (a.extractLsb' 0 4).toNat = a.toNat % 16 := by
  simp [BitVec.extractLsb'_toNat]

theorem highDigit_toNat (a : Byte) : (a.extractLsb' 4 4).toNat = a.toNat / 16 := by
  have := a.isLt
  simp only [BitVec.extractLsb'_toNat, Nat.shiftRight_eq_div_pow]
  omega

theorem nine_lt_lowDigit (a : Byte) : 9 < a.extractLsb' 0 4 ↔ 9 < a.toNat % 16 := by
  rw [BitVec.lt_def, lowDigit_toNat]
  rfl

theorem nine_lt_highDigit (a : Byte) : 9 < a.extractLsb' 4 4 ↔ 9 < a.toNat / 16 := by
  rw [BitVec.lt_def, highDigit_toNat]
  rfl

theorem nine_le_highDigit (a : Byte) : 9 ≤ a.extractLsb' 4 4 ↔ 9 ≤ a.toNat / 16 := by
  rw [BitVec.le_def, highDigit_toNat]
  rfl

/-- The correction, in numbers. -/
theorem daaCorrection_numbers (a : Byte) (ac carry : Bool) :
    (daaCorrection a ac carry).1.toNat = daaLow a.toNat ac + daaHigh a.toNat carry ∧
      (daaCorrection a ac carry).2 = (carry || decide (daaHigh a.toNat carry = 96)) := by
  simp only [daaCorrection, nine_lt_lowDigit, nine_lt_highDigit, nine_le_highDigit, Bool.or_eq_true, Bool.and_eq_true,
    decide_eq_true_eq, or_assoc, daaLow, daaHigh]
  split_ifs <;> simp

/-- DAA, in numbers. -/
theorem decimalAdjust_cpu (s : State) :
    s.decimalAdjust.cpu =
      { s.cpu with
        regs := Function.update s.getReg .a
          (BitVec.ofNat 8 (s.a.toNat + daaLow s.a.toNat s.flags.ac + daaHigh s.a.toNat s.flags.carry))
        flags := resultFlags ((s.a.toNat + daaLow s.a.toNat s.flags.ac + daaHigh s.a.toNat s.flags.carry) % 256)
          (s.flags.carry || decide (daaHigh s.a.toNat s.flags.carry = 96))
          (decide (16 ≤ s.a.toNat % 16 + daaLow s.a.toNat s.flags.ac)) } := by
  obtain ⟨hvalue, hcarry⟩ := daaCorrection_numbers s.a s.flags.ac s.flags.carry
  have hres : (add8 s.a (daaCorrection s.a s.flags.ac s.flags.carry).1 false).res =
      BitVec.ofNat 8 (s.a.toNat + daaLow s.a.toNat s.flags.ac + daaHigh s.a.toNat s.flags.carry) := by
    rw [add8_res, hvalue, Bool.toNat_false, Nat.add_zero, Nat.add_assoc]
  have hac : (add8 s.a (daaCorrection s.a s.flags.ac s.flags.carry).1 false).ac =
      decide (16 ≤ s.a.toNat % 16 + daaLow s.a.toNat s.flags.ac) := by
    have hlow := daaLow_cases s.a.toNat s.flags.ac
    have hhigh := daaHigh_cases s.a.toNat s.flags.carry
    rw [add8_ac, hvalue, Bool.toNat_false]
    exact decide_eq_decide.2 (by omega)
  have hcpu : s.decimalAdjust.cpu =
      { s.cpu with
        regs := Function.update s.getReg .a (add8 s.a (daaCorrection s.a s.flags.ac s.flags.carry).1 false).res
        flags := Flags.ofResult (add8 s.a (daaCorrection s.a s.flags.ac s.flags.carry).1 false).res
          (daaCorrection s.a s.flags.ac s.flags.carry).2
          (add8 s.a (daaCorrection s.a s.flags.ac s.flags.carry).1 false).ac } := by
    refine Cpu.eq_of (fun r => ?_) rfl
    cases r <;> rfl
  rw [hcpu, ofResult_eq_resultFlags, hres, hac, hcarry, BitVec.toNat_ofNat]

/-- Settles O51: the correction in numbers, then the addition of it. -/
theorem daaResult : Obligations.DaaResult := by
  rintro s _ _ rfl rfl
  exact ⟨_, rfl, became_tick 4 (decimalAdjust_cpu s) rfl rfl rfl rfl⟩

/-- The low digit is adjusted where the low digits and the carry in reach ten: `m` is the sum of the high digits of two
packed decimal bytes, `n` that of the low digits and the carry in. -/
theorem daaLow_of_digit_sums {m n : Nat} (hn : n < 20) :
    daaLow ((16 * m + n) % 256) (decide (16 ≤ n)) = if 10 ≤ n then 6 else 0 := by
  have h : (16 ≤ n ∨ 9 < (16 * m + n) % 256 % 16) ↔ 10 ≤ n := by omega
  simp only [daaLow, decide_eq_true_eq, h]

/-- The high digit is adjusted where the decimal sum reaches a hundred. -/
theorem daaHigh_of_digit_sums {m n : Nat} (hm : m < 19) (hn : n < 20) :
    daaHigh ((16 * m + n) % 256) (decide (256 ≤ 16 * m + n)) = if 100 ≤ 10 * m + n then 96 else 0 := by
  have h : (256 ≤ 16 * m + n ∨ 9 < (16 * m + n) % 256 / 16 ∨
      (9 ≤ (16 * m + n) % 256 / 16 ∧ 9 < (16 * m + n) % 256 % 16)) ↔ 100 ≤ 10 * m + n := by omega
  simp only [daaHigh, decide_eq_true_eq, h]

/-- Two decimal digits in one byte, the hundred left out. -/
theorem packed_of_digits {d e : Nat} (hd : d < 20) (he : e < 10) :
    (10 * d + e) % 100 / 10 * 16 + (10 * d + e) % 10 = (if 10 ≤ d then 16 * d + e - 160 else 16 * d + e) := by
  split <;> omega

/-- The adjusted sum is the packed decimal sum. -/
theorem daa_of_digit_sums {m n : Nat} (hm : m < 19) (hn : n < 20) :
    ((16 * m + n) % 256 + (if 10 ≤ n then 6 else 0) + (if 100 ≤ 10 * m + n then 96 else 0)) % 256 =
      (10 * m + n) % 100 / 10 * 16 + (10 * m + n) % 10 := by
  by_cases hten : 10 ≤ n
  · have hp := packed_of_digits (d := m + 1) (e := n - 10) (by omega) (by omega)
    have hsum : 10 * (m + 1) + (n - 10) = 10 * m + n := by omega
    rw [hsum] at hp
    rw [hp, if_pos hten]
    split <;> split <;> omega
  · have hp := packed_of_digits (d := m) (e := n) (by omega) (by omega)
    rw [hp, if_neg hten]
    split <;> split <;> omega

/-- DAA after the addition of two packed decimal bytes `a` and `v` with carry in `c`. -/
theorem daa_after_sum {x y a v c : Nat} (hx : x < 100) (hy : y < 100) (hc : c < 2) (ha : a = x / 10 * 16 + x % 10)
    (hv : v = y / 10 * 16 + y % 10) :
    ((a + v + c) % 256 + daaLow ((a + v + c) % 256) (decide (16 ≤ a % 16 + v % 16 + c)) +
        daaHigh ((a + v + c) % 256) (decide (256 ≤ a + v + c))) % 256 =
      (x + y + c) % 100 / 10 * 16 + (x + y + c) % 10 ∧
    (decide (256 ≤ a + v + c) || decide (daaHigh ((a + v + c) % 256) (decide (256 ≤ a + v + c)) = 96)) =
      decide (100 ≤ x + y + c) := by
  have hsum : a + v + c = 16 * (x / 10 + y / 10) + (x % 10 + y % 10 + c) := by omega
  have hlow : a % 16 + v % 16 + c = x % 10 + y % 10 + c := by omega
  have hdecimal : x + y + c = 10 * (x / 10 + y / 10) + (x % 10 + y % 10 + c) := by omega
  have hm : x / 10 + y / 10 < 19 := by omega
  have hn : x % 10 + y % 10 + c < 20 := by omega
  rw [hlow, hsum, hdecimal, daaLow_of_digit_sums hn, daaHigh_of_digit_sums hm hn]
  generalize x / 10 + y / 10 = m at hm
  generalize x % 10 + y % 10 + c = n at hn
  refine ⟨daa_of_digit_sums hm hn, ?_⟩
  have hhundred : 256 ≤ 16 * m + n → 100 ≤ 10 * m + n := by omega
  by_cases h : 100 ≤ 10 * m + n
  · simp [h]
  · simp [h, mt hhundred h]

/-- Settles O52: DAA after ACI, by the sums of the digits. -/
theorem daaAdjustsDecimalSum : Obligations.DaaAdjustsDecimalSum := by
  intro s v x y hx hy ha hv
  set k := (s.addA v s.flags.carry).tick 7 with hk
  have hkcpu := (State.tick_cpu _ 7).trans (s.addA_cpu v s.flags.carry)
  rw [← hk] at hkcpu
  have hka : k.a = BitVec.ofNat 8 (s.a.toNat + v.toNat + s.flags.carry.toNat) :=
    congrArg (fun c : Cpu => c.regs .a) hkcpu
  have hkac : k.flags.ac = decide (16 ≤ s.a.toNat % 16 + v.toNat % 16 + s.flags.carry.toNat) :=
    congrArg (fun c : Cpu => c.flags.ac) hkcpu
  have hkcarry : k.flags.carry = decide (256 ≤ s.a.toNat + v.toNat + s.flags.carry.toNat) :=
    congrArg (fun c : Cpu => c.flags.carry) hkcpu
  have hta : k.decimalAdjust.a = BitVec.ofNat 8 (k.a.toNat + daaLow k.a.toNat k.flags.ac +
      daaHigh k.a.toNat k.flags.carry) := congrArg (fun c : Cpu => c.regs .a) (decimalAdjust_cpu k)
  have htcarry : k.decimalAdjust.flags.carry =
      (k.flags.carry || decide (daaHigh k.a.toNat k.flags.carry = 96)) :=
    congrArg (fun c : Cpu => c.flags.carry) (decimalAdjust_cpu k)
  rw [hka, hkac, hkcarry, BitVec.toNat_ofNat] at hta
  rw [hka, hkcarry, BitVec.toNat_ofNat] at htcarry
  obtain ⟨hvalue, hcarry⟩ := daa_after_sum hx hy (toNat_lt_two s.flags.carry) ha hv
  refine ⟨_, rfl, ?_, htcarry.trans hcarry⟩
  rw [State.tick_a, hta, BitVec.toNat_ofNat]
  exact hvalue

end Sys2Proof.Machine
end

section
/-! Proofs for the logical, rotate, increment and decrement statements. -/

namespace Sys2Proof.Machine

/-! ### Logic (45_logical.md R230, R231) -/

theorem setLogic_became (s : State) (res : Byte) {ac ac' : Bool} (hac : ac = ac') (n : Nat) :
    s.Became ((s.setLogic res ac).tick n)
      { s.cpu with regs := Function.update s.getReg .a res, flags := resultFlags res.toNat false ac' } s.outside n := by
  rw [← ofResult_eq_resultFlags, ← hac]
  exact became_tick n (s.setLogic_cpu res ac) rfl rfl rfl rfl

/-- Settles O56: each rule of ANA_AC_RULE for the conjunctions, no intermediate carry for the disjunctions. -/
theorem logicResult : Obligations.LogicResult := by
  refine ⟨fun s i v n hform => ?_, fun s i res n hform => ?_⟩
  · have hac : ∀ rule, andAC rule s.a v =
        (match rule with
          | .orBit3 => s.a.getLsbD 3 || v.getLsbD 3
          | .one => true
          | .zero => false) := by
      intro rule
      cases rule with
      | orBit3 => exact BitVec.getLsbD_or
      | one | zero => rfl
    cases hform with
    | anaR src => exact ⟨_, rfl, setLogic_became s _ (hac _) 4⟩
    | ani => exact ⟨_, rfl, setLogic_became s _ (hac _) 7⟩
  · cases hform with
    | xraR src => exact ⟨_, rfl, setLogic_became s _ rfl 4⟩
    | xri => exact ⟨_, rfl, setLogic_became s _ rfl 7⟩
    | oraR src => exact ⟨_, rfl, setLogic_became s _ rfl 4⟩
    | ori => exact ⟨_, rfl, setLogic_became s _ rfl 7⟩

/-! ### Rotates (45_logical.md R245 to R248), in numbers -/

theorem append_toNat {n m : Nat} (x : BitVec n) (y : BitVec m) : (x ++ y).toNat = x.toNat * 2 ^ m + y.toNat := by
  rw [BitVec.toNat_append, ← Nat.shiftLeft_add_eq_or_of_lt y.isLt, Nat.shiftLeft_eq]

theorem low7_toNat (a : Byte) : (a.extractLsb' 0 7).toNat = a.toNat % 128 := by
  simp [BitVec.extractLsb'_toNat]

theorem high7_toNat (a : Byte) : (a.extractLsb' 1 7).toNat = a.toNat / 2 := by
  have := a.isLt
  simp only [BitVec.extractLsb'_toNat, Nat.shiftRight_eq_div_pow]
  omega

theorem getLsbD_zero (a : Byte) : a.getLsbD 0 = decide (a.toNat % 2 = 1) := by
  rw [BitVec.getLsbD, Nat.testBit_eq_decide_div_mod_eq]
  simp

theorem getLsbD_seven_toNat (a : Byte) : (a.getLsbD 7).toNat = a.toNat / 128 := by
  have := a.isLt
  rw [getLsbD_seven]
  by_cases h : 128 ≤ a.toNat
  · simp only [h, decide_true, Bool.toNat_true]
    omega
  · simp only [h, decide_false, Bool.toNat_false]
    omega

theorem getLsbD_zero_toNat (a : Byte) : (a.getLsbD 0).toNat = a.toNat % 2 := by
  rw [getLsbD_zero]
  by_cases h : a.toNat % 2 = 1
  · simp [h]
  · simp only [h, decide_false, Bool.toNat_false]
    omega

/-- Left through one more bit: bit 0 comes in, bit 7 has gone out. -/
theorem rotateLeft_eq (a : Byte) (b : Bool) :
    a.extractLsb' 0 7 ++ BitVec.ofBool b = BitVec.ofNat 8 (2 * a.toNat + b.toNat) := by
  apply BitVec.eq_of_toNat_eq
  have := toNat_lt_two b
  rw [append_toNat, low7_toNat, ofBool_toNat, BitVec.toNat_ofNat]
  omega

/-- Right through one more bit: bit 7 comes in, bit 0 has gone out. -/
theorem rotateRight_eq (a : Byte) (b : Bool) :
    BitVec.ofBool b ++ a.extractLsb' 1 7 = BitVec.ofNat 8 (128 * b.toNat + a.toNat / 2) := by
  apply BitVec.eq_of_toNat_eq
  have := toNat_lt_two b
  have := a.isLt
  rw [append_toNat, high7_toNat, ofBool_toNat, BitVec.toNat_ofNat]
  omega

theorem setRotate_became (s : State) {res res' : Byte} {carry carry' : Bool} (hres : res = res')
    (hcarry : carry = carry') :
    s.Became ((s.setRotate res carry).tick 4)
      { s.cpu with regs := Function.update s.getReg .a res', flags := { s.flags with carry := carry' } } s.outside 4 := by
  subst hres hcarry
  exact became_tick 4 (s.setRotate_cpu res carry) rfl rfl rfl rfl

theorem complement_eq (a : Byte) : ~~~a = BitVec.ofNat 8 (255 - a.toNat) := by
  apply BitVec.eq_of_toNat_eq
  rw [not_toNat, BitVec.toNat_ofNat]
  omega

/-- Settles O57: each rotate as a shift of the number by one bit. -/
theorem rotateResult : Obligations.RotateResult := by
  rintro s _ _ rfl rfl
  refine ⟨⟨_, rfl, became_tick 4 ?_ rfl rfl rfl rfl⟩, ⟨_, rfl, setRotate_became s ?_ (getLsbD_seven s.a)⟩,
    ⟨_, rfl, setRotate_became s ?_ (getLsbD_zero s.a)⟩, ⟨_, rfl, setRotate_became s ?_ (getLsbD_seven s.a)⟩,
    ⟨_, rfl, setRotate_became s ?_ (getLsbD_zero s.a)⟩⟩
  · rw [State.setA_cpu, complement_eq]
  · rw [rotateLeft_eq, getLsbD_seven_toNat]
  · rw [rotateRight_eq, getLsbD_zero_toNat]
  · exact rotateLeft_eq s.a s.flags.carry
  · exact rotateRight_eq s.a s.flags.carry

/-! ### Increment and decrement (46_increment_decrement.md) -/

/-- INR, in numbers. -/
theorem incFlags_numbers (f : Flags) (v : Byte) :
    (incFlags f v).1 = BitVec.ofNat 8 (v.toNat + 1) ∧
      (incFlags f v).2 = resultFlags ((v.toNat + 1) % 256) f.carry (decide (v.toNat % 16 = 15)) := by
  have hv : (v + 1).toNat = (v.toNat + 1) % 256 := BitVec.toNat_add v 1
  exact ⟨by rw [incFlags_value, byte_ofNat_succ], by rw [incFlags_flags, ofResult_eq_resultFlags, hv]⟩

/-- DCR, in numbers. -/
theorem decFlags_numbers (f : Flags) (v : Byte) :
    (decFlags f v).1 = BitVec.ofNat 8 (v.toNat + 255) ∧
      (decFlags f v).2 = resultFlags ((v.toNat + 255) % 256) f.carry (decide (v.toNat % 16 ≠ 0)) := by
  have hv : (v - 1).toNat = (v.toNat + 255) % 256 := by rw [← byte_ofNat_pred, BitVec.toNat_ofNat]
  exact ⟨by rw [decFlags_value, byte_ofNat_pred], by rw [decFlags_flags, ofResult_eq_resultFlags, hv]⟩

/-- A register and the flags from a count. -/
theorem setCounted_became (s : State) (r : Reg) {v v' : Byte} {f f' : Flags} (hv : v = v') (hf : f = f') :
    s.Became (((s.setReg r v).setFlags f).tick 5)
      { s.cpu with regs := Function.update s.getReg r v', flags := f' } s.outside 5 := by
  subst hv hf
  refine became_tick 5 ?_ (s.setReg_outside r v) (s.setReg_platform r v) (s.setReg_pins r v) (s.setReg_clocks r v)
  rw [State.setFlags_cpu, State.setReg_cpu]

/-- Settles O58: the count in numbers. -/
theorem incDecResult : Obligations.IncDecResult := by
  intro s r
  obtain ⟨hinc, hincf⟩ := incFlags_numbers s.flags (s.getReg r)
  obtain ⟨hdec, hdecf⟩ := decFlags_numbers s.flags (s.getReg r)
  exact ⟨⟨_, rfl, setCounted_became s r hinc hincf⟩, ⟨_, rfl, setCounted_became s r hdec hdecf⟩⟩

/-- INR M and DCR M: the byte read, `count` of it written back, the flags of `count`. -/
theorem countMem_result {s : State} (hu : s.Undisturbed) (hwf : s.mem.wf) {count : Flags → Byte → Byte × Flags}
    {v : Byte} {f : Flags} (hv : (count s.flags (s.rawRead s.hl).1).1 = v)
    (hf : (count s.flags (s.rawRead s.hl).1).2 = f) {t : State}
    (ht : t = (((s.readMem s.hl).2.writeMem s.hl (count s.flags (s.readMem s.hl).1).1).setFlags
      (count s.flags (s.readMem s.hl).1).2).tick 10) :
    t.cpu = { s.cpu with flags := f } ∧ (∀ x, t.peek x = s.storedAt s.hl v x (s.peek x)) ∧
      t.outside = { (s.rawRead s.hl).2.outside with
        mem := t.mem, bus := s.bus ++ [.memRead s.hl (s.rawRead s.hl).1, .memWrite s.hl v] } ∧
      t.platform = s.platform ∧ t.pins = s.pins ∧ t.clocks = s.clocks + 10 := by
  have hr := rawRead_readTo s s.hl (.memRead s.hl (s.rawRead s.hl).1)
  have hcalm := readMem_calm hu s.hl
  have hread := readMem_undisturbed hu s.hl
  have hv₁ : (s.readMem s.hl).1 = (s.rawRead s.hl).1 := by rw [hread]
  have hr₁ : (s.readMem s.hl).2 = (s.rawRead s.hl).2.logCycle (.memRead s.hl (s.rawRead s.hl).1) := by rw [hread]
  rw [hr₁] at hcalm
  rw [hv₁, hv, hf, hr₁, writeMem_undisturbed hcalm] at ht
  generalize (s.rawRead s.hl).2.logCycle (.memRead s.hl (s.rawRead s.hl).1) = r at hr ht
  have hw := rawWrite_wroteTo (s := r) s.hl v (.memWrite s.hl v) (hr.mem ▸ hwf)
  have hb := (rawWrite_busOnly r s.hl v).trans (logCycle_busOnly _ (.memWrite s.hl v))
  generalize (r.rawWrite s.hl v).logCycle (.memWrite s.hl v) = w at hw hb ht
  have hbus : r.bus ++ [BusCycle.memWrite s.hl v] =
      s.bus ++ [.memRead s.hl (s.rawRead s.hl).1, .memWrite s.hl v] :=
    (congrArg (· ++ _) (congrArg Outside.bus hr.outside)).trans (List.append_assoc _ _ _)
  subst ht
  refine ⟨?_, fun x => ?_, ?_, hb.platform.trans hr.platform, hb.pins.trans hr.pins, ?_⟩
  · rw [State.tick_cpu, State.setFlags_cpu, hb.cpu, hr.cpu]
  · rw [State.tick_peek, State.setFlags_peek, hw.peek, storedAt_congr hr.platform, hr.peek]
  · rw [State.tick_outside, State.setFlags_outside, hw.outside, hbus, hr.outside]
    rfl
  · rw [State.tick_clocks, State.setFlags_clocks, hw.clocks, hr.clocks]

/-- Settles O59: the count in numbers between one read and one write. -/
theorem incDecMemoryResult : Obligations.IncDecMemoryResult := by
  rintro s _ hu hwf rfl
  obtain ⟨hinc, hincf⟩ := incFlags_numbers s.flags (s.rawRead s.hl).1
  obtain ⟨hdec, hdecf⟩ := decFlags_numbers s.flags (s.rawRead s.hl).1
  exact ⟨⟨_, rfl, countMem_result hu hwf hinc hincf rfl⟩, ⟨_, rfl, countMem_result hu hwf hdec hdecf rfl⟩⟩

/-- A pair stepped to `w'`, given as a number. -/
theorem setPair_became (s : State) (x y : Reg) {w w' : Word} (hw : w = w') :
    s.Became (((s.setReg x (hiByte w)).setReg y (loByte w)).tick 5)
      { s.cpu with regs := Function.update (Function.update s.getReg x (hiByte w')) y (loByte w') } s.outside 5 := by
  subst hw
  have hs : ReadTo s s s.outside := ⟨rfl, rfl, rfl, rfl, rfl, rfl⟩
  exact hs.setPair x y _ _ 5

/-- Settles O60: the pair or SP as a number, one more or one less. -/
theorem pairStepResult : Obligations.PairStepResult := by
  intro s
  refine ⟨fun i rh rl k hform => ?_, ⟨_, rfl, ?_⟩, ⟨_, rfl, ?_⟩⟩
  · cases hform with
    | inxB => exact ⟨_, rfl, setPair_became s .b .c (word_ofNat_succ s.bc).symm⟩
    | inxD => exact ⟨_, rfl, setPair_became s .d .e (word_ofNat_succ s.de).symm⟩
    | inxH => exact ⟨_, rfl, setPair_became s .h .l (word_ofNat_succ s.hl).symm⟩
    | dcxB => exact ⟨_, rfl, setPair_became s .b .c (word_ofNat_pred s.bc).symm⟩
    | dcxD => exact ⟨_, rfl, setPair_became s .d .e (word_ofNat_pred s.de).symm⟩
    | dcxH => exact ⟨_, rfl, setPair_became s .h .l (word_ofNat_pred s.hl).symm⟩
  · rw [word_ofNat_succ]
    exact became_tick 5 (s.setSp_cpu _) rfl rfl rfl rfl
  · rw [word_ofNat_pred]
    exact became_tick 5 (s.setSp_cpu _) rfl rfl rfl rfl

end Sys2Proof.Machine
end
